-- ==== Sys2Proof/Word.lean ====
section
/-! DEFINITION. The words of the ZK4320: a byte is what one access to the register window or one byte
of a table carries (09 R163, 10 R178); a half is a timestamp or a timer reload (08 R154, R157). -/

namespace Sys2Proof

/-- One byte of the register window, of a table or of a record. -/
abbrev Byte := BitVec 8

/-- A 16-bit quantity: the timestamp, a trigger time, an end time, a timer reload or count. -/
abbrev Half := BitVec 16

end Sys2Proof
end

