-- ==== Sys2Proof/Syntax.lean ====
section
/-! DEFINITION. The commands of the ZK4320, one constructor of `Instr` for each row of
`spec/opcode_table.json`, with the operands a row has. The argument of a command given through COMMAND
is not an operand: it is what COMMAND_ARG holds when the command is taken (09 R171). -/

namespace Sys2Proof

/-- Serial ports P0-P3 (00 Terms). -/
abbrev Port := Fin 4
/-- Trigger lines TL0-TL7 (00 Terms). -/
abbrev LineId := Fin 8
/-- Trigger sources: 0-7 lines, 8-11 interval timers, 12-19 software (01 1.1). -/
abbrev Source := Fin 20
/-- Targets T0-T7 (00 Terms). -/
abbrev TargetId := Fin 8
/-- Result queues Q0-Q7 (00 Terms). -/
abbrev QueueId := Fin 8
/-- Notification groups G0-G7 (00 Terms). -/
abbrev GroupId := Fin 8
/-- Interval timers IT0-IT3 (00 Terms). -/
abbrev TimerId := Fin 4
/-- Run slots 0-31 (00 Terms). -/
abbrev Slot := Fin 32
/-- Descriptors 0-127 (00 Terms). -/
abbrev DescId := Fin 128

/-- The registers a write to which is refused with READ_ONLY (09 R165). -/
inductive ReadOnlyReg where
  | ident | revision | status | rqlevel | rqhead | nclaim | nstack | npend
  | tstampLo | tstampHi | portstate01 | portstate23 | timerstate | runfree
  deriving DecidableEq, Repr

/-- The registers whose write only stores (row REGISTER_WRITE of the table). -/
inductive PlainReg where
  | commandArg | tbdiv | tidxLo | tidxHi
  deriving DecidableEq, Repr

/-- The part of an NCLAIM read cycle a command stands for (07 R143): its start, where the group is
chosen, its rising edge, where the entry is pushed, or the whole cycle with no event between the two. -/
inductive ReadPart where
  | whole | start | edge
  deriving DecidableEq, Repr

/-- The commands: the rows of `spec/opcode_table.json`. -/
inductive Instr where
  /-- DEVICE_RESET (09 R175): RESET# is driven low. -/
  | deviceReset
  /-- RESET_RELEASE (09 R176): RESET# goes high. -/
  | resetRelease
  /-- START_UP_END (09 R176): the start-up memory clear completes. -/
  | startUpEnd
  /-- TICK (08 R153): the part-clock count reaches TBDIV + 1. -/
  | tick
  /-- TRIGGER_LINE_EDGE (01 R2): the pin of line `n` stands at `level` from now on. -/
  | triggerLineEdge (n : LineId) (level : Bool)
  /-- HOLD_OFF_EXPIRY (01 R3) of line `n`. -/
  | holdOffExpiry (n : LineId)
  /-- INTERVAL_TIMER_EXPIRY (08 R159) of timer `t`. -/
  | intervalTimerExpiry (t : TimerId)
  /-- FRAME_END (05 R92) on port `p`; `ready` is the synchronised level of Pn_RDY at that moment, which
  a port that enters AWAIT judges at once (05 R94; log 8, DESIGN CHOICE). -/
  | frameEnd (p : Port) (ready : Bool)
  /-- READY_ARRIVAL (05 R94): the synchronised level of Pn_RDY of port `p` becomes `level`. -/
  | readyArrival (p : Port) (level : Bool)
  /-- READY_TIMEOUT_EXPIRY (05 R95) on port `p`. -/
  | readyTimeoutExpiry (p : Port)
  /-- GAP_EXPIRY (05 R97) on port `p`. -/
  | gapExpiry (p : Port)
  /-- CUT_BYTE_END (05 R101) on port `p`. -/
  | cutByteEnd (p : Port)
  /-- ENGINE_RESET (09 R172): 01h written to COMMAND. -/
  | engineReset
  /-- PORT_RESET (05 R102): 10h written to COMMAND, `later` part clocks after the step before (log 4,
  DESIGN CHOICE). -/
  | portReset (later : Nat)
  /-- PORT_RESUME (04 R76): 11h written to COMMAND. -/
  | portResume
  /-- PORT_ABORT (05 R100): 12h written to COMMAND; `later` as for PORT_RESET. -/
  | portAbort (later : Nat)
  /-- CANCEL_TRIGGER (01 R16): 20h written to COMMAND. -/
  | cancelTrigger
  /-- FLUSH_QUEUE (06 R125): 30h written to COMMAND. -/
  | flushQueue
  /-- TIMER_START (08 R158): 40h written to COMMAND. -/
  | timerStart
  /-- TIMER_STOP (08 R160): 41h written to COMMAND. -/
  | timerStop
  /-- BAD_COMMAND (09 R171): the unassigned code `code` written to COMMAND. -/
  | badCommand (code : Byte)
  /-- SWTRIG_WRITE (01 R5). -/
  | swtrigWrite (v : Byte)
  /-- HFAULT_WRITE (09 R174). -/
  | hfaultWrite (v : Byte)
  /-- TSEL_WRITE (09 R167). -/
  | tselWrite (v : Byte)
  /-- TDATA_READ (09 R169). -/
  | tdataRead
  /-- TDATA_WRITE (09 R170). -/
  | tdataWrite (v : Byte)
  /-- RQSEL_WRITE (06 R120). -/
  | rqselWrite (v : Byte)
  /-- RQFLAGS_WRITE (06 R117). -/
  | rqflagsWrite (v : Byte)
  /-- RQLOST_WRITE (06 R117). -/
  | rqlostWrite (v : Byte)
  /-- RQHEAD_READ (06 R121). -/
  | rqheadRead
  /-- RQRELEASE_WRITE (06 R123). -/
  | rqreleaseWrite (v : Byte)
  /-- NCTRL_WRITE (07 R137). -/
  | nctrlWrite (v : Byte)
  /-- NCLAIM_READ (07 R143). -/
  | nclaimRead (part : ReadPart)
  /-- NEND_WRITE (07 R146). -/
  | nendWrite (v : Byte)
  /-- TSTAMP_LO_READ (08 R155). -/
  | tstampLoRead
  /-- MISS_LATCH_CLEAR (01 R14): `v` written to MISS0, MISS1 or MISS2. -/
  | missLatchClear (reg : Fin 3) (v : Byte)
  /-- READ_ONLY_WRITE (09 R165). -/
  | readOnlyWrite (reg : ReadOnlyReg) (v : Byte)
  /-- REGISTER_WRITE (09 R165). -/
  | registerWrite (reg : PlainReg) (v : Byte)
  /-- TRANSMIT_BYTE_BEGINS (02 R33) on port `p`. -/
  | transmitByteBegins (p : Port)
  /-- RECEIVE_BYTE_SAMPLED (03 R43) on port `p`; bit `i` of `bits` is the level sampled from Pn_DI for
  the `i`-th bit of the byte, in the order sampled. -/
  | receiveByteSampled (p : Port) (bits : Byte)
  deriving DecidableEq, Repr

end Sys2Proof
end

