-- ==== Sys2Proof/WellFormed.lean ====
section
/-! DEFINITION. Which terms of `Instr` are commands of the part: the one operand that its type does not
bound is the code of BAD_COMMAND, which 10 R183 must not assign. -/

namespace Sys2Proof

/-- The command codes that 10 R183 assigns. -/
def assignedCodes : List Byte := [0x01, 0x10, 0x11, 0x12, 0x20, 0x30, 0x40, 0x41]

/-- A well-formed command (10 R183: a BAD_COMMAND carries a code that is not listed). -/
def Instr.wf : Instr → Bool
  | .badCommand code => !assignedCodes.contains code
  | .deviceReset => true
  | .resetRelease => true
  | .startUpEnd => true
  | .tick => true
  | .triggerLineEdge _ _ => true
  | .holdOffExpiry _ => true
  | .intervalTimerExpiry _ => true
  | .frameEnd _ _ => true
  | .readyArrival _ _ => true
  | .readyTimeoutExpiry _ => true
  | .gapExpiry _ => true
  | .cutByteEnd _ => true
  | .engineReset => true
  | .portReset _ => true
  | .portResume => true
  | .portAbort _ => true
  | .cancelTrigger => true
  | .flushQueue => true
  | .timerStart => true
  | .timerStop => true
  | .swtrigWrite _ => true
  | .hfaultWrite _ => true
  | .tselWrite _ => true
  | .tdataRead => true
  | .tdataWrite _ => true
  | .rqselWrite _ => true
  | .rqflagsWrite _ => true
  | .rqlostWrite _ => true
  | .rqheadRead => true
  | .rqreleaseWrite _ => true
  | .nctrlWrite _ => true
  | .nclaimRead _ => true
  | .nendWrite _ => true
  | .tstampLoRead => true
  | .missLatchClear _ _ => true
  | .readOnlyWrite _ _ => true
  | .registerWrite _ _ => true
  | .transmitByteBegins _ => true
  | .receiveByteSampled _ _ => true

end Sys2Proof
end

