-- ==== Sys2Proof/Decode.lean ====
section
/-! DEFINITION. From bits to commands. The opcode table gives its rows no bits, so a word spells no
command. What the manual does give is the host bus: which command an access to which register is
(09 R163-R165 and 9.2, 10 R183). -/

namespace Sys2Proof

/-- The command a word of the opcode table spells: none, since no row of the table has bits (log 19, DESIGN CHOICE). -/
def decodeTableWord (_nbits _w : Nat) : Option Instr := none

/-- The kinds of bus cycle (09 R163). -/
inductive BusCycle where
  | read | write | neither
  deriving DecidableEq, Repr

/-- The cycle that the levels of CS#, RD# and WR# make (09 R163); `true` is a high level. -/
def busCycle (csN rdN wrN : Bool) : BusCycle :=
  if csN then .neither
  else if !rdN && wrN then .read
  else if rdN && !wrN then .write
  else .neither

/-- The command that writing `v` to COMMAND gives (10 R183). `later` says how many part clocks after the step
before the write of a command that may cut a frame falls (log 4, DESIGN CHOICE). -/
def commandOf (v : Byte) (later : Nat) : Instr :=
  if v = 0x01 then .engineReset
  else if v = 0x10 then .portReset later
  else if v = 0x11 then .portResume
  else if v = 0x12 then .portAbort later
  else if v = 0x20 then .cancelTrigger
  else if v = 0x30 then .flushQueue
  else if v = 0x40 then .timerStart
  else if v = 0x41 then .timerStop
  else .badCommand v

/-- The command that a write of `v` to register address `a` is (09 9.2; log 15, DESIGN CHOICE). -/
def busWrite (a : Fin 32) (v : Byte) (later : Nat) : Instr :=
  match a.val with
  | 0x00 => .readOnlyWrite .ident v
  | 0x01 => .readOnlyWrite .revision v
  | 0x02 => .readOnlyWrite .status v
  | 0x03 => commandOf v later
  | 0x04 => .registerWrite .commandArg v
  | 0x05 => .hfaultWrite v
  | 0x06 => .swtrigWrite v
  | 0x07 => .registerWrite .tbdiv v
  | 0x08 => .tselWrite v
  | 0x09 => .registerWrite .tidxLo v
  | 0x0A => .registerWrite .tidxHi v
  | 0x0B => .tdataWrite v
  | 0x0C => .rqselWrite v
  | 0x0D => .readOnlyWrite .rqlevel v
  | 0x0E => .rqflagsWrite v
  | 0x0F => .rqlostWrite v
  | 0x10 => .readOnlyWrite .rqhead v
  | 0x11 => .rqreleaseWrite v
  | 0x12 => .nctrlWrite v
  | 0x13 => .readOnlyWrite .nclaim v
  | 0x14 => .nendWrite v
  | 0x15 => .readOnlyWrite .nstack v
  | 0x16 => .readOnlyWrite .npend v
  | 0x17 => .readOnlyWrite .tstampLo v
  | 0x18 => .readOnlyWrite .tstampHi v
  | 0x19 => .readOnlyWrite .portstate01 v
  | 0x1A => .readOnlyWrite .portstate23 v
  | 0x1B => .readOnlyWrite .timerstate v
  | 0x1C => .readOnlyWrite .runfree v
  | 0x1D => .missLatchClear 0 v
  | 0x1E => .missLatchClear 1 v
  | _ => .missLatchClear 2 v

/-- The command that a read of register address `a` is, for the four registers whose read has a side
effect (09 R164); every other read changes nothing and has no row. -/
def busRead (a : Fin 32) : Option Instr :=
  match a.val with
  | 0x0B => some .tdataRead
  | 0x10 => some .rqheadRead
  | 0x13 => some (.nclaimRead .whole)
  | 0x17 => some .tstampLoRead
  | _ => none

end Sys2Proof
end

