-- ==== Sys2Proof/Config.lean ====
section
/-! DEFINITION. What the manual leaves open and the model does not choose: free values, constants
without a body. -/

namespace Sys2Proof

/-- FREE VALUE (log 3). The order of what the manual lets be taken "in either order" within one event: the
grant decisions of the ports that it leads to (04 R71), and the expiries of one tick (01 R1). The `n`-th
open order is the permutation that `permute (raceOrder n)` names; nothing constrains it. -/
opaque Config.raceOrder : Nat → Nat

end Sys2Proof
end

