-- ==== Sys2Proof/Machine/State.lean ====
section
/-! DEFINITION. The state of the ZK4320 as plain data: every item the manual gives the part, each with
the rule that names it, and its value after device reset. -/

namespace Sys2Proof.Machine

/-- RESET# low, the start-up memory clear, or neither (09 R175, R176). -/
inductive PartMode where
  | inReset | startUp | running
  deriving DecidableEq, Repr

/-- Tier of a run (01 1.4). -/
inductive Tier where
  | normal | urgent
  deriving DecidableEq, Repr

/-- State of a run slot (03 R38). -/
inductive RunState where
  | free | pending | active | awaiting
  deriving DecidableEq, Repr

/-- State of a port (05 5.4). -/
inductive PortState where
  | off | idle | shifting | await | gap | halted
  deriving DecidableEq, Repr

/-- Cut indicator of a port (05 R101). -/
inductive Cut where
  | none | abort | reset
  deriving DecidableEq, Repr

/-- Policy of a result queue (06 R106). -/
inductive Policy where
  | lossy | lossless
  deriving DecidableEq, Repr

/-- Tier of a notification group (07 R136). -/
inductive GroupTier where
  | low | high
  deriving DecidableEq, Repr

/-- Mode of an interval timer (08 8.4). -/
inductive TimerMode where
  | oneShot | periodic
  deriving DecidableEq, Repr

/-- Edge select of a trigger line (01 R2). -/
inductive EdgeSelect where
  | rising | falling | both
  deriving DecidableEq, Repr

/-- Last miss cause (01 R13). -/
inductive MissCause where
  | none | limit | pool
  deriving DecidableEq, Repr

/-- Status of a result record (06 6.4, 10 R181). -/
inductive Status where
  | ok | timeout | badDescriptor | aborted | stepLimit
  deriving DecidableEq, Repr

/-- Clock mode of a target (05 R87). -/
inductive SerialMode where
  | a | b | c | d
  deriving DecidableEq, Repr

/-- Host fault codes (09 9.5, 10 R183). -/
inductive FaultCode where
  | none | badCommand | badArgument | badValue | entryBusy | quotaBusy | quotaSum | readOnly
  | endEmpty | endMismatch | staleRelease | emptyRelease
  deriving DecidableEq, Repr

/-- An addressed memory: pairs of index and byte in rising order of index, none with the byte 00h,
which is what an unlisted index reads as (the start-up clear, 09 R176). -/
abbrev Mem := List Host.Cell

/-- The 8 bytes of a descriptor held in a run record (02 R22). -/
abbrev DescCopy := Vector Byte 8

/-- A trigger line: its pin, the edge detector's reference level and its hold-off (01 1.2). -/
structure Line where
  /-- The level of the pin TLn. -/
  pin : Bool
  /-- The level the detector last saw (R2). -/
  ref : Bool
  /-- The hold-off: idle, or running with this many ticks left (R3). -/
  holdOff : Option Nat
  deriving DecidableEq, Repr

/-- A trigger map entry with its source's counts and latch (01 1.4, R11-R14). -/
structure TrigEntry where
  enable : Bool
  missNotify : Bool
  group : GroupId
  firstDesc : DescId
  /-- Instance limit; 0 only as the reset value (R18). -/
  limit : BitVec 3
  tier : Tier
  edge : EdgeSelect
  /-- Step limit, 0 for none (R49). -/
  stepLimit : Byte
  /-- On-end trigger: none, or `n` for SWn (R6). -/
  onEnd : Option (Fin 8)
  /-- Hold-off value H in ticks (R3). -/
  holdOffTicks : Byte
  missCount : Byte
  lastMiss : MissCause
  /-- Live-run count (R11). -/
  live : Nat
  /-- MISS latch (R14). -/
  missLatch : Bool
  deriving DecidableEq, Repr

/-- A run record (03 3.1). -/
structure Run where
  state : RunState
  source : Source
  tier : Tier
  trigTime : Half
  /-- Current descriptor index. -/
  desc : DescId
  copy : DescCopy
  /-- Steps completed. -/
  steps : Byte
  /-- Retries left. -/
  retries : BitVec 2
  port : Option Port
  /-- The queue a reservation is held in. -/
  resv : Option QueueId
  /-- Cancel mark. -/
  mark : Bool
  /-- Capture buffer, oldest byte first. -/
  capture : List Byte
  deriving DecidableEq, Repr

/-- The record of a FREE slot (03 R37). -/
def freeRun : Run :=
  { state := .free, source := 0, tier := .normal, trigTime := 0, desc := 0,
    copy := Vector.replicate 8 0, steps := 0, retries := 0, port := none, resv := none,
    mark := false, capture := [] }

/-- The frame a port is shifting: what the port read of the target at frame start (05 R91), the lengths of
its two phases (R86), the pattern bytes whose transmission has begun (02 R33) and how far it has come. -/
structure Frame where
  target : TargetId
  /-- The select line: `false` for Pn_SEL0#, `true` for Pn_SEL1#. -/
  select : Bool
  /-- Clock divider code (10 R180): the part clock is divided by 2 to the power code + 1. -/
  divider : BitVec 3
  mode : SerialMode
  delayed : Bool
  lsbFirst : Bool
  fill : Byte
  /-- The clock changes its idle level at frame start, half a bit period before select (R91). -/
  leadIn : Bool
  /-- Transmit length of the frame's copy (R86). -/
  txLen : Nat
  /-- Receive length of the frame's copy (R86). -/
  rxLen : Nat
  /-- Pattern bytes whose transmission has begun, first byte first. -/
  sent : List Byte
  /-- Part clocks since frame start (R86, R91; log 4, DESIGN CHOICE). -/
  clocks : Nat
  deriving DecidableEq, Repr

/-- A serial port with its port config entry, its tier queues and its state (04 4.6, 05 5.4). -/
structure PortRec where
  enable : Bool
  haltOnError : Bool
  haltNotify : Bool
  group : GroupId
  starveLimit : BitVec 4
  starveCount : BitVec 4
  /-- URGENT tier queue, head first (04 R65). -/
  urgent : List Slot
  /-- NORMAL tier queue, head first. -/
  normal : List Slot
  state : PortState
  attached : Option Slot
  clockTarget : Option TargetId
  /-- The level at which Pn_CLK rests: `true` for high (05 R81). -/
  clkIdle : Bool
  /-- The interval count of the ready timeout or the gap: ticks left while it runs. -/
  interval : Option Nat
  cut : Cut
  /-- The ready polarity held during AWAIT: `true` for active low (05 R93). -/
  awaitLow : Bool
  frame : Option Frame
  deriving DecidableEq, Repr

/-- A result record (06 6.4); its data length is the length of `data`. -/
structure Record where
  seq : Byte
  status : Status
  source : Source
  slot : Slot
  desc : DescId
  tag : Byte
  trigTime : Half
  endTime : Half
  data : List Byte
  deriving DecidableEq, Repr

/-- A result queue with its config entry (06 6.1, 6.5, 6.8). -/
structure Queue where
  quota : Nat
  policy : Policy
  threshold : Byte
  group : GroupId
  levelEn : Bool
  lostEn : Bool
  errEn : Bool
  /-- Records held, oldest first; the occupancy is their number. -/
  records : List Record
  /-- Reservations V. -/
  resv : Nat
  /-- Sequence counter. -/
  nextSeq : Byte
  lostCount : Byte
  /-- LOST latch. -/
  lost : Bool
  /-- ERR latch. -/
  err : Bool
  deriving DecidableEq, Repr

/-- The writable byte of a notification group entry (07 7.2). -/
structure Group where
  enable : Bool
  tier : GroupTier
  rank : BitVec 3
  deriving DecidableEq, Repr

/-- An entry of the in-service stack: a group and its tier at claim (07 R138). -/
structure StackEntry where
  group : GroupId
  tier : GroupTier
  deriving DecidableEq, Repr

/-- An NCLAIM read cycle: none in progress, or one whose choice was fixed at its start (07 R143). -/
inductive ClaimCycle where
  | closed
  | opened (choice : Option StackEntry)
  deriving DecidableEq, Repr

/-- An interval timer (08 8.4). -/
structure Timer where
  reload : Half
  mode : TimerMode
  running : Bool
  count : Half
  deriving DecidableEq, Repr

/-- The state of the part. -/
structure State where
  mode : PartMode
  -- Trigger unit (chapter 1)
  lines : Vector Line 8
  trig : Vector TrigEntry 20
  -- Descriptor store, pattern memory (chapter 2) and target table (chapter 5)
  desc : Mem
  pattern : Mem
  targets : Mem
  -- Run pool, ports, result queues (chapters 3 to 6)
  runs : Vector Run 32
  ports : Vector PortRec 4
  queues : Vector Queue 8
  -- Notification controller (chapter 7)
  groups : Vector Group 8
  nen : Bool
  nlow : Bool
  /-- In-service stack, top entry first (R138). -/
  stack : List StackEntry
  claim : ClaimCycle
  /-- Whether some group was claimable at the last part clock, which IRQ# shows (11 R186; log 22,
  DESIGN CHOICE). -/
  irqSample : Bool
  -- Time base and interval timers (chapter 8)
  tbdiv : Byte
  /-- The divider in force for the tick period in progress (R153). -/
  tickDiv : Byte
  /-- Part clocks counted since the last tick (R153). -/
  clockCount : Nat
  timestamp : Half
  tsLatch : Byte
  timers : Vector Timer 4
  -- Host bus interface (chapter 9)
  tsel : Fin 9
  tidx : BitVec 10
  rqsel : QueueId
  /-- Head-stream pointer (06 R121). -/
  headPtr : Nat
  commandArg : Byte
  fault : FaultCode
  laterFaults : BitVec 4
  /-- D0-D7 as last driven by a read of a register whose read has a side effect (R164, log 16, DESIGN CHOICE). -/
  dataOut : Byte
  /-- The MODEL's own: how many open orders have been drawn from `Config.raceOrder` (log 3, free value). -/
  raceCount : Nat
  /-- The commands that wait, first in first out. -/
  pending : List Instr
  deriving DecidableEq, Repr

/-- Why the machine stops with a fault: never. The manual gives the part no machine fault: a refused
access is recorded in HFAULT and the part goes on (09 R173). -/
inductive Fault where
  deriving DecidableEq, Repr

/-- Why a command is refused by the model. -/
inductive Refusal where
  /-- Raised by `exec` for a row that has no meaning yet. Safe: nothing is claimed of the row. -/
  | notModelled (mnemonic : String)
  /-- Raised by BAD_COMMAND whose operand is a code that 10 R183 assigns: no such command exists, the
  write of that code is another row (log 17, DESIGN CHOICE). Safe: no behaviour is claimed for it. -/
  | assignedCode (code : Byte)
  deriving DecidableEq, Repr

/-- A trigger map entry after device reset (01 R18). -/
def resetEntry : TrigEntry :=
  { enable := false, missNotify := false, group := 0, firstDesc := 0, limit := 0, tier := .normal,
    edge := .rising, stepLimit := 0, onEnd := none, holdOffTicks := 0, missCount := 0,
    lastMiss := .none, live := 0, missLatch := false }

/-- A port after device reset (04 R80, 05 R104). -/
def resetPort : PortRec :=
  { enable := false, haltOnError := false, haltNotify := false, group := 0, starveLimit := 0,
    starveCount := 0, urgent := [], normal := [], state := .off, attached := none,
    clockTarget := none, clkIdle := false, interval := none, cut := .none, awaitLow := false,
    frame := none }

/-- A result queue after device reset (06 R129). -/
def resetQueue : Queue :=
  { quota := 0, policy := .lossy, threshold := 0, group := 0, levelEn := false, lostEn := false,
    errEn := false, records := [], resv := 0, nextSeq := 0, lostCount := 0, lost := false,
    err := false }

/-- The part right after device reset, completed by the start-up memory clear (01 R18, 02 R35, 03 R64,
04 R80, 05 R85 and R104, 06 R129, 07 R151, 08 R162, 09 R177). The trigger line pins and references stand
low (log 2, DESIGN CHOICE). -/
def State.reset : State :=
  { mode := .running
    lines := Vector.replicate 8 { pin := false, ref := false, holdOff := none }
    trig := Vector.replicate 20 resetEntry
    desc := [], pattern := [], targets := []
    runs := Vector.replicate 32 freeRun
    ports := Vector.replicate 4 resetPort
    queues := Vector.replicate 8 resetQueue
    groups := Vector.replicate 8 { enable := false, tier := .low, rank := 0 }
    nen := false, nlow := false, stack := [], claim := .closed, irqSample := false
    tbdiv := 0, tickDiv := 0, clockCount := 0, timestamp := 0, tsLatch := 0
    timers := Vector.replicate 4 { reload := 0, mode := .oneShot, running := false, count := 0 }
    tsel := 0, tidx := 0, rqsel := 0, headPtr := 0, commandArg := 0
    fault := .none, laterFaults := 0, dataOut := 0
    raceCount := 0, pending := [] }

end Sys2Proof.Machine
end

