-- ==== Sys2Proof/Machine/Operands.lean ====
section
/-! DEFINITION. Operand forms: the byte layouts of chapter 10, read as fields (descriptor copies, target
entries, written bytes) and formed from fields (table bytes, record bytes), and the counts that saturate. -/

namespace Sys2Proof.Machine

/-- Bits `lo` to `lo + n - 1` of a byte, as a number (10 10.1: bit 0 is the least significant). -/
def bitsOf (b : Byte) (lo n : Nat) : Nat := b.toNat / 2 ^ lo % 2 ^ n

/-- Bit `i` of a byte. -/
def bitOf (b : Byte) (i : Nat) : Bool := b.getLsbD i

/-- 1 for a set bit, 0 for a clear one. -/
def bitVal (b : Bool) : Nat := if b then 1 else 0

/-- A byte from the number its fields make. -/
def byteOf (n : Nat) : Byte := BitVec.ofNat 8 n

/-- Low byte of a two-byte quantity (00 Conventions: the low byte stands at the lower index). -/
def lowByte (h : Half) : Byte := h.setWidth 8

/-- High byte of a two-byte quantity. -/
def highByte (h : Half) : Byte := (h >>> 8).setWidth 8

/-- A two-byte quantity from its bytes. -/
def halfOf (hi lo : Byte) : Half := hi ++ lo

/-- A count that stops at its maximum (00 Conventions: saturating). -/
def satInc {w : Nat} (n : BitVec w) : BitVec w := if n = BitVec.allOnes w then n else n + 1

/-- An argument that names one of `n` things, or none where it is out of range. -/
def argOf (n : Nat) (v : Byte) : Option (Fin n) :=
  if h : v.toNat < n then some ⟨v.toNat, h⟩ else none

/-- A vector with `f` applied at every index. -/
def mapAll {α : Type} {n : Nat} (f : α → α) (v : Vector α n) : Vector α n :=
  Vector.ofFn fun i => f v[i]

-- Descriptor copies (10 R179, table 0)

def copyTarget (d : DescCopy) : TargetId := Fin.ofNat 8 (bitsOf d[0] 0 3)
def copyPost (d : DescCopy) : Bool := bitOf d[0] 4
def copyAwait (d : DescCopy) : Bool := bitOf d[0] 5
def copyKeep (d : DescCopy) : Bool := bitOf d[0] 6
def copyTxLen (d : DescCopy) : Nat := bitsOf d[1] 0 5
def copyRxLen (d : DescCopy) : Nat := bitsOf d[2] 0 5
def copyOffset (d : DescCopy) : Nat := d[3].toNat + 256 * bitsOf d[4] 0 1
def copyQueue (d : DescCopy) : QueueId := Fin.ofNat 8 (bitsOf d[4] 1 3)
def copyRetries (d : DescCopy) : Nat := bitsOf d[4] 4 3
def copyNext (d : DescCopy) : Byte := d[5]
def copyTimeout (d : DescCopy) : Byte := d[6]
def copyTag (d : DescCopy) : Byte := d[7]

/-- The end of a chain: next = FFh (10 R179). -/
def endOfChain : Byte := 0xFF

-- Codes of the small enumerations (chapter 10)

def tierCode : Tier → Nat
  | .normal => 0
  | .urgent => 1

def tierOf (b : Bool) : Tier := if b then .urgent else .normal

def runStateCode : RunState → Nat
  | .free => 0
  | .pending => 1
  | .active => 2
  | .awaiting => 3

def portStateCode : PortState → Nat
  | .off => 0
  | .idle => 1
  | .shifting => 2
  | .await => 3
  | .gap => 4
  | .halted => 5

def policyCode : Policy → Nat
  | .lossy => 0
  | .lossless => 1

def policyOf (b : Bool) : Policy := if b then .lossless else .lossy

def groupTierCode : GroupTier → Nat
  | .low => 0
  | .high => 1

def groupTierOf (b : Bool) : GroupTier := if b then .high else .low

def timerModeCode : TimerMode → Nat
  | .oneShot => 0
  | .periodic => 1

def timerModeOf (b : Bool) : TimerMode := if b then .periodic else .oneShot

def edgeCode : EdgeSelect → Nat
  | .rising => 0
  | .falling => 1
  | .both => 2

/-- Edge select of a code; 3 is unassigned (10 R179). -/
def edgeOf (n : Nat) : Option EdgeSelect :=
  match n with
  | 0 => some .rising
  | 1 => some .falling
  | 2 => some .both
  | _ => none

/-- On-end field of a code: 0 none, 8 + n for SWn, 1-7 unassigned (10 R179). -/
def onEndOf (n : Nat) : Option (Option (Fin 8)) :=
  if n = 0 then some none
  else if 8 ≤ n then some (some (Fin.ofNat 8 (n - 8)))
  else none

def onEndCode : Option (Fin 8) → Nat
  | none => 0
  | some n => 8 + n.val

def missCauseCode : MissCause → Nat
  | .none => 0
  | .limit => 1
  | .pool => 2

/-- Status byte of a record (10 R181). -/
def statusCode : Status → Byte
  | .ok => 0
  | .timeout => 1
  | .badDescriptor => 2
  | .aborted => 3
  | .stepLimit => 4

/-- Host fault code (10 R183). -/
def faultCodeVal : FaultCode → Nat
  | .none => 0x0
  | .badCommand => 0x1
  | .badArgument => 0x2
  | .badValue => 0x3
  | .entryBusy => 0x4
  | .quotaBusy => 0x5
  | .quotaSum => 0x6
  | .readOnly => 0x7
  | .endEmpty => 0x8
  | .endMismatch => 0x9
  | .staleRelease => 0xA
  | .emptyRelease => 0xB

def serialModeOf (n : Nat) : SerialMode :=
  match n with
  | 0 => .a
  | 1 => .b
  | 2 => .c
  | _ => .d

/-- Whether the clock of a mode idles high (05 R87). -/
def modeIdleHigh : SerialMode → Bool
  | .a => false
  | .b => false
  | .c => true
  | .d => true

/-- Whether a mode launches its first bit at select assertion (05 R87: modes A and C). -/
def modeLaunchesAtSelect : SerialMode → Bool
  | .a => true
  | .b => false
  | .c => true
  | .d => false

-- Table bytes formed from fields (10 R179, R180)

/-- Byte `k` of a trigger map entry (10 R179, table 3). -/
def trigByte (e : TrigEntry) (k : Nat) : Byte :=
  match k with
  | 0 => byteOf (bitVal e.enable + 2 * bitVal e.missNotify + 16 * e.group.val)
  | 1 => byteOf e.firstDesc.val
  | 2 => byteOf (e.limit.toNat + 8 * tierCode e.tier + 16 * edgeCode e.edge)
  | 3 => e.stepLimit
  | 4 => byteOf (onEndCode e.onEnd)
  | 5 => e.holdOffTicks
  | 6 => e.missCount
  | _ => byteOf (missCauseCode e.lastMiss + 16 * (e.live % 8))

/-- Byte `k` of a queue config entry (10 R180, table 4). -/
def queueByte (q : Queue) (k : Nat) : Byte :=
  match k with
  | 0 => byteOf (q.quota % 128 + 128 * policyCode q.policy)
  | 1 => q.threshold
  | 2 => byteOf (q.group.val + 16 * bitVal q.levelEn + 32 * bitVal q.lostEn + 64 * bitVal q.errEn)
  | 3 => byteOf q.records.length
  | 4 => byteOf q.resv
  | 5 => q.nextSeq
  | 6 => q.lostCount
  | _ => 0

/-- Byte `k` of a port config entry (10 R180, table 7). -/
def portByte (p : PortRec) (k : Nat) : Byte :=
  match k with
  | 0 => byteOf (bitVal p.enable + 2 * bitVal p.haltOnError + 4 * bitVal p.haltNotify
          + 16 * p.group.val)
  | 1 => byteOf (p.starveLimit.toNat + 16 * p.starveCount.toNat)
  | 2 => byteOf p.urgent.length
  | _ => byteOf p.normal.length

/-- Byte `k` of a timer entry (10 R180, table 8). -/
def timerByte (t : Timer) (k : Nat) : Byte :=
  match k with
  | 0 => lowByte t.reload
  | 1 => highByte t.reload
  | 2 => byteOf (timerModeCode t.mode + 2 * bitVal t.running)
  | _ => 0

/-- Byte `k` of a run pool view slot (10 R181, table 6); a FREE slot reads 00h throughout (03 R41). -/
def viewByte (r : Run) (k : Nat) : Byte :=
  match k with
  | 0 => byteOf (runStateCode r.state + 4 * tierCode r.tier + 8 * bitVal r.mark
          + match r.port with
            | none => 0
            | some p => 16 + 32 * p.val)
  | 1 => byteOf r.source.val
  | 2 => lowByte r.trigTime
  | 3 => highByte r.trigTime
  | 4 => byteOf r.desc.val
  | 5 => r.steps
  | 6 => byteOf (r.retries.toNat
          + match r.resv with
            | none => 0
            | some q => 16 + 32 * q.val)
  | 7 => byteOf ((copyTarget r.copy).val + 16 * (copyQueue r.copy).val)
  | 8 => copyNext r.copy
  | 9 => copyTag r.copy
  | _ => 0

/-- The bytes of a record in stream order (10 R181). -/
def recordBytes (r : Record) : List Byte :=
  [r.seq, statusCode r.status, byteOf r.source.val, byteOf r.slot.val, byteOf r.desc.val, r.tag,
    lowByte r.trigTime, highByte r.trigTime, lowByte r.endTime, highByte r.endTime,
    byteOf r.data.length] ++ r.data

end Sys2Proof.Machine
end

