-- ==== Sys2Proof/Machine/Ops.lean ====
section
/-! DEFINITION. Named operations over the memories and the register files, the host fault record, and
the rule by which host accesses and events reach the part only while it runs. -/

namespace Sys2Proof.Machine

-- The addressed memories

/-- The byte an index reads as where the memory lists none: the start-up clear wrote 00h (09 R176). -/
def memUnlisted : Byte := 0

/-- The byte at index `x`. -/
def memRead : Mem → Nat → Byte
  | [], _ => memUnlisted
  | (a, b) :: m, x => if a = x then b else memRead m x

/-- The memory with byte `v` at index `x`, in canonical form. -/
def memWrite : Mem → Nat → Byte → Mem
  | [], x, v => if v = memUnlisted then [] else [(x, v)]
  | (a, b) :: m, x, v =>
    if a < x then (a, b) :: memWrite m x v
    else if a = x then (if v = memUnlisted then m else (x, v) :: m)
    else (if v = memUnlisted then (a, b) :: m else (x, v) :: (a, b) :: m)

/-- Every listed index is above `lo` in rising order, and no listed byte is the unlisted one. -/
def Memory.wfAbove : Option Nat → Mem → Bool
  | _, [] => true
  | lo, (a, b) :: m =>
    (match lo with
      | none => true
      | some l => decide (l < a)) && b != memUnlisted && Memory.wfAbove (some a) m

/-- The canonical form: indices strictly rising, no entry equal to what an unlisted index reads as. -/
def Memory.wf (m : Mem) : Bool := Memory.wfAbove none m

-- The register files

def State.line (s : State) (n : LineId) : Line := s.lines[n]
def State.setLine (s : State) (n : LineId) (x : Line) : State := { s with lines := s.lines.set n x }
def State.trigger (s : State) (n : Source) : TrigEntry := s.trig[n]
def State.setTrigger (s : State) (n : Source) (x : TrigEntry) : State :=
  { s with trig := s.trig.set n x }
def State.run (s : State) (n : Slot) : Run := s.runs[n]
def State.setRun (s : State) (n : Slot) (x : Run) : State := { s with runs := s.runs.set n x }
def State.port (s : State) (n : Port) : PortRec := s.ports[n]
def State.setPort (s : State) (n : Port) (x : PortRec) : State := { s with ports := s.ports.set n x }
def State.queue (s : State) (n : QueueId) : Queue := s.queues[n]
def State.setQueue (s : State) (n : QueueId) (x : Queue) : State :=
  { s with queues := s.queues.set n x }
def State.group (s : State) (n : GroupId) : Group := s.groups[n]
def State.setGroup (s : State) (n : GroupId) (x : Group) : State :=
  { s with groups := s.groups.set n x }
def State.timer (s : State) (n : TimerId) : Timer := s.timers[n]
def State.setTimer (s : State) (n : TimerId) (x : Timer) : State :=
  { s with timers := s.timers.set n x }

/-- The ports in rising order. -/
def allPorts : List Port := List.finRange 4
/-- The result queues in rising order. -/
def allQueues : List QueueId := List.finRange 8
/-- The run slots in rising order. -/
def allSlots : List Slot := List.finRange 32
/-- The trigger sources in rising order. -/
def allSources : List Source := List.finRange 20
/-- The notification groups in rising order. -/
def allGroups : List GroupId := List.finRange 8

-- The host fault record

/-- A refused access (09 R173): the first refusal since the last clear stores its code, every later one
raises the saturating count. -/
def refuse (c : FaultCode) (s : State) : State :=
  if s.fault = .none then { s with fault := c }
  else { s with laterFaults := satInc s.laterFaults }

/-- The host fault record cleared (09 R174). -/
def clearFault (s : State) : State := { s with fault := .none, laterFaults := 0 }

-- What reaches the part

/-- An event at a block: taken while the part runs; during RESET# and start-up no event reaches any
block (09 R175, R176). -/
def whenRunning (f : State → State) (s : State) : State :=
  if s.mode = .running then f s else s

/-- A host write (09 R165): ignored during RESET# and start-up (R175, R176). An access that is made ends
any NCLAIM read cycle still open, since the bus carries one access at a time (R163, log 9, DESIGN CHOICE). -/
def hostWrite (f : State → State) (s : State) : State :=
  if s.mode = .running then f { s with claim := .closed } else s

/-- A host read of a register with a side effect (09 R164). During RESET# and start-up it gives 00h and
has no side effect (R175, R176). -/
def hostRead (f : State → State) (s : State) : State :=
  if s.mode = .running then f { s with claim := .closed } else { s with dataOut := 0 }

/-- A command whose argument names one of `n` things: refused with BAD_ARGUMENT where COMMAND_ARG is out
of range (09 R171), taken with the argument otherwise. -/
def withArg (n : Nat) (f : Fin n → State → State) (s : State) : State :=
  match argOf n s.commandArg with
  | none => refuse .badArgument s
  | some i => f i s

-- Open orders

/-- `x` put into `l` so that `k` elements stand before it (at the end where `l` is shorter). -/
def insertAt {α : Type} : Nat → α → List α → List α
  | 0, x, l => x :: l
  | _ + 1, x, [] => [x]
  | k + 1, x, y :: l => y :: insertAt k x l

/-- The `k`-th permutation of `l`; every permutation is the `k`-th for some `k`. -/
def permute {α : Type} : Nat → List α → List α
  | _, [] => []
  | k, x :: l => insertAt (k % (l.length + 1)) x (permute (k / (l.length + 1)) l)

/-- The order in which the manual lets several things be taken "in either order" within one event: the
grant decisions that it leads to (04 R71), the expiries of one tick (01 R1). Open where there are two or
more of them (log 3, free value). -/
def drawOrder {α : Type} (l : List α) (s : State) : List α × State :=
  if l.length ≤ 1 then (l, s)
  else (permute (Config.raceOrder s.raceCount) l, { s with raceCount := s.raceCount + 1 })

end Sys2Proof.Machine
end

