-- ==== Sys2Proof/Machine/Flags.lean ====
section
/-! DEFINITION. Derived conditions: what the manual says "is not stored" but follows the state from
moment to moment. LEVEL and the notification sources (06 R118, R119; 01 R15; 04 R77), pending, claimable
and IRQ# (07 R134, R140, R142), eligibility (04 R68), validity of a descriptor copy (02 R25), the busy
tests of the tables, and the fields of a target entry. -/

namespace Sys2Proof.Machine

-- Result queues

/-- Occupancy O of a queue (06 6.1). -/
def Queue.occupancy (q : Queue) : Nat := q.records.length

/-- Occupancy plus reservations below the quota (06 R107, R111). -/
def Queue.hasRoom (q : Queue) : Bool := decide (q.occupancy + q.resv < q.quota)

/-- LEVEL of a queue (06 R118). -/
def Queue.level (q : Queue) : Bool :=
  q.threshold != 0 && decide (q.threshold.toNat ≤ q.occupancy)

/-- The sum of the quotas of all queues (06 R105). -/
def quotaSum (s : State) : Nat := (allQueues.map fun q => (s.queue q).quota).sum

-- Notification sources (07 7.1)

/-- LEVEL_q, LOST_q and ERR_q active (06 R119), as a count of 0 to 3. -/
def queueSources (q : Queue) : Nat :=
  bitVal (q.level && q.levelEn) + bitVal (q.lost && q.lostEn) + bitVal (q.err && q.errEn)

/-- MISS_s active (01 R15). -/
def missActive (e : TrigEntry) : Bool := e.missLatch && e.missNotify

/-- HALT_p active (04 R77). -/
def haltActive (p : PortRec) : Bool := p.state == .halted && p.haltNotify

/-- The number of active sources feeding group `g`, 0-48 (07 R131, R135). -/
def activeSources (s : State) (g : GroupId) : Nat :=
  (allQueues.map fun q => if (s.queue q).group = g then queueSources (s.queue q) else 0).sum
  + (allSources.map fun n =>
      if (s.trigger n).group = g then bitVal (missActive (s.trigger n)) else 0).sum
  + (allPorts.map fun p => if (s.port p).group = g then bitVal (haltActive (s.port p)) else 0).sum

/-- Group `g` is pending (07 R134). -/
def pendingGroup (s : State) (g : GroupId) : Bool :=
  (s.group g).enable && decide (0 < activeSources s g)

/-- Group `g` stands on the in-service stack (07 R149). -/
def inService (s : State) (g : GroupId) : Bool := s.stack.any fun e => e.group == g

/-- An entry claimed as HIGH stands on the stack (07 R140). -/
def highInService (s : State) : Bool := s.stack.any fun e => e.tier == .high

/-- Group `g` is claimable (07 R140). -/
def claimable (s : State) (g : GroupId) : Bool :=
  pendingGroup s g && !inService s g && s.nen &&
    (match (s.group g).tier with
      | .high => !highInService s
      | .low => s.nlow && s.stack.isEmpty)

/-- Group `a` comes before group `b` in the choice of the best claimable group (07 R141): HIGH before
LOW, then the lower rank, then the lower number. -/
def better (s : State) (a b : GroupId) : Bool :=
  let ta := groupTierCode (s.group a).tier
  let tb := groupTierCode (s.group b).tier
  if ta ≠ tb then decide (tb < ta)
  else if (s.group a).rank ≠ (s.group b).rank then decide ((s.group a).rank < (s.group b).rank)
  else decide (a < b)

/-- The better of a group and a choice made so far. -/
def pickBetter (s : State) (best : Option GroupId) (g : GroupId) : Option GroupId :=
  match best with
  | none => some g
  | some b => if better s g b then some g else some b

/-- The best claimable group, if any group is claimable (07 R141). -/
def bestClaimable (s : State) : Option GroupId :=
  (allGroups.filter fun g => claimable s g).foldl (pickBetter s) none

/-- Some group is claimable: the IRQ state of STATUS, and IRQ# asserted (07 R142). -/
def irqState (s : State) : Bool := allGroups.any fun g => claimable s g

/-- Some port is HALTED (09 R166). -/
def anyHalted (s : State) : Bool := allPorts.any fun p => (s.port p).state == .halted

-- Target entries (10 R180, table 2)

/-- Byte `k` of target entry `t`. -/
def targetByte (m : Mem) (t : TargetId) (k : Nat) : Byte := memRead m (8 * t.val + k)

def targetEnable (m : Mem) (t : TargetId) : Bool := bitOf (targetByte m t 0) 0
def targetPort (m : Mem) (t : TargetId) : Port := Fin.ofNat 4 (bitsOf (targetByte m t 0) 1 2)
def targetSelect (m : Mem) (t : TargetId) : Bool := bitOf (targetByte m t 0) 3
def targetDivider (m : Mem) (t : TargetId) : BitVec 3 := (targetByte m t 1).setWidth 3
def targetMode (m : Mem) (t : TargetId) : SerialMode := serialModeOf (bitsOf (targetByte m t 1) 4 2)
def targetDelayed (m : Mem) (t : TargetId) : Bool := bitOf (targetByte m t 1) 6
def targetLsbFirst (m : Mem) (t : TargetId) : Bool := bitOf (targetByte m t 1) 7
def targetFill (m : Mem) (t : TargetId) : Byte := targetByte m t 2
def targetReadyLow (m : Mem) (t : TargetId) : Bool := bitOf (targetByte m t 3) 0
def targetGap (m : Mem) (t : TargetId) : Nat := (targetByte m t 4).toNat

/-- Another enabled target than `t` names port `p` and select `sel` (05 R84). -/
def selectTaken (m : Mem) (t : TargetId) (p : Port) (sel : Bool) : Bool :=
  (List.finRange 8).any fun u : TargetId =>
    u != t && targetEnable m u && targetPort m u == p && targetSelect m u == sel

-- Runs and ports

/-- The 8 bytes of descriptor `d` in the store, taken together (02 R22). -/
def fetchCopy (m : Mem) (d : DescId) : DescCopy :=
  Vector.ofFn fun k : Fin 8 => memRead m (8 * d.val + k.val)

/-- A descriptor copy is valid at this moment: none of the seven conditions of 02 R25 holds. -/
def copyValid (s : State) (c : DescCopy) : Bool :=
  targetEnable s.targets (copyTarget c)
  && decide (copyRxLen c ≤ 16)
  && decide (1 ≤ copyTxLen c + copyRxLen c) && decide (copyTxLen c + copyRxLen c ≤ 32)
  && decide (copyOffset c + copyTxLen c ≤ 512)
  && decide (copyRetries c ≤ 3)
  && !(copyAwait c && copyTimeout c == 0)
  && !(decide (0x80 ≤ (copyNext c).toNat) && decide ((copyNext c).toNat ≤ 0xFE))
  && (s.queue (copyQueue c)).quota != 0

/-- A queued run is eligible (04 R68): its copy's queue is LOSSY, or LOSSLESS with room. -/
def eligible (s : State) (n : Slot) : Bool :=
  let q := s.queue (copyQueue (s.run n).copy)
  q.policy == .lossy || q.hasRoom

/-- The copy of the run in slot `n` names queue `q`. -/
def names (s : State) (q : QueueId) (n : Slot) : Bool := copyQueue (s.run n).copy == q

/-- A run queued on port `p` names queue `q`: a change of `q` leads an IDLE `p` to a grant decision
(04 R69). -/
def waits (s : State) (q : QueueId) (p : Port) : Bool :=
  (s.port p).urgent.any (names s q) || (s.port p).normal.any (names s q)

/-- The tier queue of a port. -/
def PortRec.tierQueue (p : PortRec) : Tier → List Slot
  | .urgent => p.urgent
  | .normal => p.normal

/-- A port is OFF with both tier queues empty (05 R83). -/
def PortRec.offAndEmpty (p : PortRec) : Bool :=
  p.state == .off && p.urgent.isEmpty && p.normal.isEmpty

/-- A run is attached (03 R38: states ACTIVE and AWAITING). -/
def Run.isAttached (r : Run) : Bool := r.state == .active || r.state == .awaiting

/-- The lowest-numbered FREE slot (03 R39). -/
def lowestFree (s : State) : Option Slot := allSlots.find? fun n => (s.run n).state == .free

/-- The number of FREE slots, RUNFREE (03 R39). -/
def freeCount (s : State) : Nat := allSlots.countP fun n => (s.run n).state == .free

/-- A configuration byte of a trigger map entry may not be written: enabled or live runs (01 R8). -/
def TrigEntry.busy (e : TrigEntry) : Bool := e.enable || e.live != 0

/-- A selected edge (01 R2): the change to `level` is one the edge select names. -/
def selectedEdge (e : EdgeSelect) (level : Bool) : Bool :=
  match e with
  | .rising => level
  | .falling => !level
  | .both => true

end Sys2Proof.Machine
end

