-- ==== Sys2Proof/Machine/Results.lean ====
section
/-! DEFINITION. The result queues' own operations: forming a record, appending or losing it, converting
and returning reservations (chapter 6, 03 R61). -/

namespace Sys2Proof.Machine

/-- The record the run pool forms from the run in slot `n` (03 R61), all but its sequence number; the end
time is the timestamp at the event. -/
def formRecord (s : State) (n : Slot) (st : Status) (data : List Byte) : Record :=
  let r := s.run n
  { seq := 0, status := st, source := r.source, slot := n, desc := r.desc, tag := copyTag r.copy,
    trigTime := r.trigTime, endTime := s.timestamp, data := data }

/-- A record appended to queue `q` (06 R112, R116): it takes the sequence counter, the counter wraps on,
a status other than OK sets ERR, and a head change in the selected queue resets the head-stream
pointer (R122). -/
def appendRecord (q : QueueId) (rec : Record) (s : State) : State :=
  let Q := s.queue q
  let s1 := s.setQueue q
    { Q with
      records := Q.records ++ [{ rec with seq := Q.nextSeq }]
      nextSeq := Q.nextSeq + 1
      err := Q.err || rec.status != .ok }
  if Q.records.isEmpty && s.rqsel == q then { s1 with headPtr := 0 } else s1

/-- A record that finds no room (06 R113): the lost count rises, LOST is set, and ERR too where the
status is not OK. -/
def loseRecord (q : QueueId) (rec : Record) (s : State) : State :=
  let Q := s.queue q
  s.setQueue q
    { Q with
      lostCount := satInc Q.lostCount
      lost := true
      err := Q.err || rec.status != .ok }

/-- A record posted without a reservation (06 R111). -/
def postFree (q : QueueId) (rec : Record) (s : State) : State :=
  if (s.queue q).hasRoom then appendRecord q rec s else loseRecord q rec s

/-- A reservation of queue `q` converted into the posted record (06 R108). A queue that counts no
reservation cannot have one converted; no run reaches that, and the record is then posted as one
without a reservation (log 13, DESIGN CHOICE). -/
def convert (q : QueueId) (rec : Record) (s : State) : State :=
  if 0 < (s.queue q).resv then
    appendRecord q rec (s.setQueue q { s.queue q with resv := (s.queue q).resv - 1 })
  else postFree q rec s

/-- The record of an attached run: its reservation is converted where it holds one (06 R108), and the
record is posted without reservation otherwise (R111). The run then holds none. -/
def postHeld (n : Slot) (rec : Record) (s : State) : State :=
  let r := s.run n
  match r.resv with
  | some q => convert q rec (s.setRun n { r with resv := none })
  | none => postFree (copyQueue r.copy) rec s

/-- A held reservation returned without a record (06 R109). -/
def returnResv (n : Slot) (s : State) : State :=
  let r := s.run n
  match r.resv with
  | some q =>
    (s.setRun n { r with resv := none }).setQueue q
      { s.queue q with resv := (s.queue q).resv - 1 }
  | none => s

/-- A reservation taken in queue `q` for the run in slot `n` (06 R107, a request that succeeds). -/
def takeResv (n : Slot) (q : QueueId) (s : State) : State :=
  (s.setRun n { s.run n with resv := some q }).setQueue q
    { s.queue q with resv := (s.queue q).resv + 1 }

/-- A miss of source `n` (01 R13). -/
def miss (n : Source) (cause : MissCause) (s : State) : State :=
  let e := s.trigger n
  s.setTrigger n { e with missCount := satInc e.missCount, lastMiss := cause, missLatch := true }

end Sys2Proof.Machine
end

