-- ==== Sys2Proof/Machine/Arbiter.lean ====
section
/-! DEFINITION. The frame start, the grant decision and the gap: how a port comes to serve a run and how
it is left free again (chapter 4; 05 5.5, 5.7). -/

namespace Sys2Proof.Machine

/-- A frame starts on port `p` for the run in slot `n` (05 R91): the port reads the target's entry, makes
the target its clock target, drives the clock to the mode's idle level, where it then rests (log 12, DEDUCED),
and enters SHIFTING; the run's capture buffer is emptied (03 R43). -/
def startFrame (p : Port) (n : Slot) (s : State) : State :=
  let r := s.run n
  let t := copyTarget r.copy
  let mode := targetMode s.targets t
  let P := s.port p
  (s.setRun n { r with capture := [] }).setPort p
    { P with
      state := .shifting
      attached := some n
      clockTarget := some t
      clkIdle := modeIdleHigh mode
      interval := none
      cut := .none
      frame := some
        { target := t, select := targetSelect s.targets t, divider := targetDivider s.targets t,
          mode := mode, delayed := targetDelayed s.targets t,
          lsbFirst := targetLsbFirst s.targets t, fill := targetFill s.targets t,
          leadIn := modeIdleHigh mode != P.clkIdle,
          txLen := copyTxLen r.copy, rxLen := copyRxLen r.copy, sent := [], clocks := 0 } }

/-- Slot `n` enters the tail of the tier queue `t` of port `p` (04 R66). -/
def enterTail (p : Port) (t : Tier) (n : Slot) (s : State) : State :=
  let P := s.port p
  match t with
  | .urgent => s.setPort p { P with urgent := P.urgent ++ [n] }
  | .normal => s.setPort p { P with normal := P.normal ++ [n] }

/-- Slot `n` leaves the tier queue `t` of port `p`, the others keeping their order (04 R67). -/
def leaveQueue (p : Port) (t : Tier) (n : Slot) (s : State) : State :=
  let P := s.port p
  match t with
  | .urgent => s.setPort p { P with urgent := P.urgent.erase n }
  | .normal => s.setPort p { P with normal := P.normal.erase n }

/-- The run nearest the head of a tier queue that is eligible (04 R70). -/
def candidate (s : State) (l : List Slot) : Option Slot := l.find? (eligible s)

/-- The arbiter's choice among the candidates (04 R70): URGENT, unless the starvation limit is nonzero
and the counter has reached it while a NORMAL candidate stands. -/
def chooseTier (limit count : BitVec 4) (urgent normal : Option Slot) : Option (Tier × Slot) :=
  match urgent, normal with
  | none, none => none
  | some u, none => some (.urgent, u)
  | none, some n => some (.normal, n)
  | some u, some n => if limit ≠ 0 ∧ limit ≤ count then some (.normal, n) else some (.urgent, u)

/-- The starvation counter after a grant (04 R73); `contested` says that a NORMAL candidate existed. -/
def countAfter (count : BitVec 4) (granted : Tier) (contested : Bool) : BitVec 4 :=
  match granted with
  | .normal => 0
  | .urgent => if contested then satInc count else count

/-- The grant of the run in slot `n`, of tier `t`, on port `p` (03 R42, 04 R70): it leaves its queue and
becomes ACTIVE and attached, takes a reservation where its copy's queue is LOSSLESS (06 R107), the
starvation counter is updated and its frame starts. -/
def grant (p : Port) (t : Tier) (n : Slot) (contested : Bool) (s : State) : State :=
  let q := copyQueue (s.run n).copy
  let s1 := leaveQueue p t n s
  let s2 := s1.setPort p
    { s1.port p with starveCount := countAfter (s1.port p).starveCount t contested }
  let s3 := s2.setRun n { s2.run n with state := .active }
  let s4 := if (s3.queue q).policy = .lossless then takeResv n q s3 else s3
  startFrame p n s4

/-- A grant decision of port `p` (04 R69, R70): made while IDLE; without a candidate it grants none. -/
def grantDecision (p : Port) (s : State) : State :=
  let P := s.port p
  if P.state = .idle then
    let u := candidate s P.urgent
    let n := candidate s P.normal
    match chooseTier P.starveLimit P.starveCount u n with
    | none => s
    | some (t, slot) => grant p t slot n.isSome s
  else s

/-- The ports that one event leads to a grant decision, those of `c` that are IDLE, make their decisions
one after the other (04 R69, R71, R72), each on what the ones before it left. -/
def decideWhere (c : Port → Bool) (s : State) : State :=
  let o := drawOrder (allPorts.filter fun p => (s.port p).state == .idle && c p) s
  o.1.foldl (fun st p => grantDecision p st) o.2

/-- A change of queue `q` in favour of blocked runs leads every IDLE port with a queued run naming it to
a decision (04 R69, third kind). -/
def queueChanged (q : QueueId) (s : State) : State := decideWhere (waits s q) s

/-- The slot of an ended run returns to FREE and its source's live-run count falls (03 R59, steps 3
and 4). -/
def freeSlot (n : Slot) (s : State) : State :=
  let e := s.trigger (s.run n).source
  (s.setTrigger (s.run n).source { e with live := e.live - 1 }).setRun n freeRun

/-- The attached run of port `p` detaches. -/
def detach (p : Port) (s : State) : State := s.setPort p { s.port p with attached := none }

/-- The gap of the target whose frame or wait has just ended (05 R96): the port's clock target is the
target whose frame it started most recently (log 21, DEDUCED). -/
def gapTicks (s : State) (p : Port) : Nat :=
  match (s.port p).clockTarget with
  | none => 0
  | some t => targetGap s.targets t

/-- A port whose gap has expired with no run attached: OFF where its enable is 0, IDLE otherwise
(05 R97, cases 3 and 4). The decision it then makes is its caller's. -/
def leaveGap (p : Port) (s : State) : State :=
  let P := s.port p
  s.setPort p { P with state := if P.enable then .idle else .off, interval := none, cut := .none }

/-- The gap of port `p` expires (05 R97): an unmarked kept run's frame starts, a marked one ends ABORTED
(03 R58), and a port left without a run goes OFF or IDLE. -/
def gapOver (p : Port) (s : State) : State :=
  match (s.port p).attached with
  | none => leaveGap p s
  | some n =>
    if (s.run n).mark then
      leaveGap p (freeSlot n (detach p (postHeld n (formRecord s n .aborted []) s)))
    else startFrame p n s

/-- Port `p` enters GAP (05 R96); a gap of 0 ticks is over in the same event. -/
def enterGap (p : Port) (s : State) : State :=
  let P := s.port p
  let g := gapTicks s p
  let s1 := s.setPort p { P with state := .gap, interval := some g, cut := .none, frame := none }
  if g = 0 then gapOver p s1 else s1

end Sys2Proof.Machine
end

