-- ==== Sys2Proof/Machine/Runs.lean ====
section
/-! DEFINITION. Runs from admission to end: the trigger event, the fetch and validation of a descriptor,
what a step's end decides, and the ends that commands impose (chapters 1 to 3). -/

namespace Sys2Proof.Machine

/-- Descriptor `d` becomes current for the run in slot `n`: its 8 bytes are fetched together (02 R22). -/
def makeCurrent (n : Slot) (d : DescId) (s : State) : State :=
  s.setRun n { s.run n with desc := d, copy := fetchCopy s.desc d }

/-- The BAD_DESCRIPTOR record of a run whose copy failed validation, posted without reservation to the
queue the copy names (02 R27). -/
def postInvalid (n : Slot) (s : State) : State :=
  postFree (copyQueue (s.run n).copy) (formRecord s n .badDescriptor []) s

/-- A run with a valid copy enters the tail of its tier queue on the port of the copy's target, PENDING,
with its capture buffer discarded (02 R26, 03 R40, R54). -/
def enqueueRun (n : Slot) (s : State) : State :=
  let r := s.run n
  let p := targetPort s.targets (copyTarget r.copy)
  enterTail p r.tier n (s.setRun n { r with state := .pending, port := some p, capture := [] })

/-- A run loads its retries left from its valid copy (02 R26). -/
def loadRetries (n : Slot) (s : State) : State :=
  s.setRun n { s.run n with retries := BitVec.ofNat 2 (copyRetries (s.run n).copy) }

/-- An admitted event of source `src` starts a run in slot `n` (01 R12, 03 R40): the slot is filled, the
first descriptor fetched and validated, and the run queued or, where the copy is invalid, ended at
once with BAD_DESCRIPTOR. A queue entry on an IDLE port leads to a decision (04 R69). -/
def startRun (src : Source) (n : Slot) (s : State) : State :=
  let e := s.trigger src
  let s1 := s.setTrigger src { e with live := e.live + 1 }
  let s2 := s1.setRun n
    { freeRun with state := .pending, source := src, tier := e.tier, trigTime := s.timestamp }
  let s3 := makeCurrent n e.firstDesc s2
  if copyValid s3 (s3.run n).copy then
    let s4 := enqueueRun n (loadRetries n s3)
    decideWhere (fun x => some x == (s4.run n).port) s4
  else freeSlot n (postInvalid n s3)

/-- A trigger event of source `src` (01 R12): ignored at a disabled entry, missed at the instance limit
(LIMIT) or with no FREE slot (POOL), admitted into the lowest FREE slot otherwise. -/
def triggerEvent (src : Source) (s : State) : State :=
  let e := s.trigger src
  if !e.enable then s
  else if e.live = e.limit.toNat then miss src .limit s
  else
    match lowestFree s with
    | none => miss src .pool s
    | some n => startRun src n s

/-- The source of software trigger SWn: 12 + n (01 1.1). -/
def swSource (n : Fin 8) : Source := ⟨12 + n.val, by omega⟩

/-- The source of interval timer t: 8 + t (01 R4). -/
def timerSource (t : TimerId) : Source := ⟨8 + t.val, by omega⟩

/-- The source of trigger line n: n (01 1.1). -/
def lineSource (n : LineId) : Source := ⟨n.val, by omega⟩

/-- The on-end trigger of a run of `src` that ended successfully (03 R60), judged as any trigger event. -/
def fireOnEnd (src : Source) (s : State) : State :=
  match (s.trigger src).onEnd with
  | none => s
  | some n => triggerEvent (swSource n) s

/-- A returned reservation, if there was one, leads port `x` to a decision (04 R69, 06 R109). -/
def returnLeads (s : State) (ret : Option QueueId) (x : Port) : Bool :=
  match ret with
  | none => false
  | some q => waits s q x

/-- The queue in which a step that succeeds with POST 0 returns its reservation (03 R50, R52). -/
def returnedBy (r : Run) : Option QueueId := if copyPost r.copy then none else r.resv

/-- The record or the return of a successful step (03 R50, R52 step 1): an OK record with POST 1, the
reservation returned with POST 0. -/
def settleStep (n : Slot) (s : State) : State :=
  let r := s.run n
  if copyPost r.copy then postHeld n (formRecord s n .ok r.capture) s else returnResv n s

/-- The run attached to port `p` ends with one record at its step's end, and the port enters GAP
(03 R51, R57, R59). -/
def endAtStep (p : Port) (n : Slot) (st : Status) (s : State) : State :=
  decideWhere (fun x => x == p)
    (freeSlot n (enterGap p (detach p (postHeld n (formRecord s n st (s.run n).capture) s))))

/-- The successful end at next END (03 R50, R59, R60): the decisions that the port's leaving and a return
lead to come before the on-end event (log 11, DEDUCED). -/
def endSuccessfully (p : Port) (n : Slot) (s : State) : State :=
  let r := s.run n
  let s1 := freeSlot n (enterGap p (detach p (settleStep n s)))
  fireOnEnd r.source (decideWhere (fun x => x == p || returnLeads s1 (returnedBy r) x) s1)

/-- Conditions 2 and 3 of a KEEP continuation (03 R53), with condition 1 in `keep`. -/
def keepPossible (p : Port) (keep : Bool) (c : DescCopy) (s : State) : Bool :=
  keep && targetPort s.targets (copyTarget c) == p && (s.port p).enable

/-- Condition 4 of a KEEP continuation (03 R53): a LOSSLESS queue has room. -/
def keepHasRoom (c : DescCopy) (s : State) : Bool :=
  (s.queue (copyQueue c)).policy == .lossy || (s.queue (copyQueue c)).hasRoom

/-- A KEEP continuation (03 R53): the run stays attached and ACTIVE, takes a reservation where its new
queue is LOSSLESS, discards its capture buffer, and the port enters GAP. -/
def continueKept (p : Port) (n : Slot) (s : State) : State :=
  let q := copyQueue (s.run n).copy
  let s1 := if (s.queue q).policy = .lossless then takeResv n q s else s
  enterGap p (s1.setRun n { s1.run n with state := .active, capture := [] })

/-- The advance (03 R52, R53, R54): record or return, fetch and validate the descriptor named by next,
then BAD_DESCRIPTOR end, KEEP continuation or re-queue. A return taken in one event with the
continuation's request in the same queue leads no port to a decision (R53). -/
def advance (p : Port) (n : Slot) (s : State) : State :=
  let r := s.run n
  let s1 := settleStep n s
  let s2 := makeCurrent n (Fin.ofNat 128 (copyNext r.copy).toNat) s1
  let c := (s2.run n).copy
  if copyValid s2 c then
    let s3 := loadRetries n s2
    let possible := keepPossible p (copyKeep r.copy) c s3
    let ret := if possible && returnedBy r == some (copyQueue c) then none else returnedBy r
    if possible && keepHasRoom c s3 then
      let s4 := continueKept p n s3
      decideWhere (fun x => returnLeads s4 ret x) s4
    else
      let s4 := enterGap p (enqueueRun n (detach p s3))
      decideWhere (fun x => x == p || some x == (s4.run n).port || returnLeads s4 ret x) s4
  else
    let s3 := freeSlot n (enterGap p (detach p (postInvalid n s2)))
    decideWhere (fun x => x == p || returnLeads s3 (returnedBy r) x) s3

/-- The step limit of the run's entry is nonzero and reached (03 R49, test 3). -/
def stepLimitReached (s : State) (n : Slot) : Bool :=
  (s.trigger (s.run n).source).stepLimit != 0
    && (s.trigger (s.run n).source).stepLimit == (s.run n).steps

/-- Step success on port `p` (03 R49): steps completed rises, then the first of four tests that holds
decides: cancel mark, next END, step limit, advance. -/
def stepSuccess (p : Port) (n : Slot) (s : State) : State :=
  let s1 := s.setRun n { s.run n with steps := satInc (s.run n).steps }
  let r := s1.run n
  if r.mark then endAtStep p n .aborted s1
  else if copyNext r.copy = endOfChain then endSuccessfully p n s1
  else if stepLimitReached s1 n then endAtStep p n .stepLimit s1
  else advance p n s1

/-- A retry (03 R46): retries left falls, the reservation is returned, the capture buffer discarded, the
run re-enters the tail of its tier queue on the same port and the port enters GAP. -/
def retryStep (p : Port) (n : Slot) (s : State) : State :=
  let ret := (s.run n).resv
  let s1 := returnResv n s
  let r := s1.run n
  let s2 := s1.setRun n
    { r with retries := r.retries - 1, capture := [], state := .pending, port := some p }
  let s3 := enterGap p (enterTail p r.tier n (detach p s2))
  decideWhere (fun x => x == p || returnLeads s3 ret x) s3

/-- A step failure (03 R55, 04 R75, 05 R95): a TIMEOUT record, the run's end, and the port HALTED where
halt-on-error is 1, in GAP otherwise. -/
def failStep (p : Port) (n : Slot) (s : State) : State :=
  if (s.port p).haltOnError then
    let s1 := detach p (postHeld n (formRecord s n .timeout (s.run n).capture) s)
    freeSlot n
      (s1.setPort p { s1.port p with state := .halted, interval := none, cut := .none, frame := none })
  else endAtStep p n .timeout s

/-- A PENDING run removed from its tier queue ends ABORTED, its record posted without reservation
(01 R16, 03 R59, R63). -/
def endPending (n : Slot) (s : State) : State :=
  let r := s.run n
  let s1 := postFree (copyQueue r.copy) (formRecord s n .aborted []) s
  let s2 := match r.port with
    | none => s1
    | some p => leaveQueue p r.tier n s1
  freeSlot n s2

/-- The attached run of port `p` ends ABORTED at a PORT_ABORT or PORT_RESET (03 R62): with the bytes it
captured, or with none in GAP before a kept step. -/
def abortAttached (p : Port) (n : Slot) (s : State) : State :=
  let data := if (s.port p).state = .gap then [] else (s.run n).capture
  freeSlot n (detach p (postHeld n (formRecord s n .aborted data) s))

/-- The frame of port `p` has run to its end (03 R43, 05 R92): every transmit byte has begun and every
receive byte has been sampled (log 7, DEDUCED). -/
def frameComplete (s : State) (n : Slot) (f : Frame) : Bool :=
  f.sent.length == copyTxLen (s.run n).copy
    && (s.run n).capture.length == copyRxLen (s.run n).copy

end Sys2Proof.Machine
end

