-- ==== Sys2Proof/Machine/Tables.lean ====
section
/-! DEFINITION. The nine tables behind TSEL, TIDX and TDATA: their sizes, their bytes, and what their
owners do with a written byte (09 9.3, 10 R178-R181). -/

namespace Sys2Proof.Machine

/-- The number of bytes of a table (09 9.3). -/
def tableSize (t : Fin 9) : Nat :=
  match t.val with
  | 0 => 1024
  | 1 => 512
  | 2 => 64
  | 3 => 160
  | 4 => 64
  | 5 => 32
  | 6 => 384
  | 7 => 16
  | _ => 16

/-- The tier of a group's stack entry; LOW while it is not in service (07 7.2). -/
def tierAtClaim (s : State) (g : GroupId) : GroupTier :=
  match s.stack.find? fun e => e.group == g with
  | none => .low
  | some e => e.tier

/-- Byte `k` of group entry `g` (10 R180, table 5). -/
def groupByte (s : State) (g : GroupId) (k : Nat) : Byte :=
  match k with
  | 0 => byteOf (bitVal (s.group g).enable + 2 * groupTierCode (s.group g).tier
          + 16 * (s.group g).rank.toNat)
  | 1 => byteOf (bitVal (pendingGroup s g) + 2 * bitVal (claimable s g) + 4 * bitVal (inService s g)
          + 8 * groupTierCode (tierAtClaim s g))
  | 2 => byteOf (activeSources s g)
  | _ => 0

/-- The byte at index `i` of table `t`, as its owner gives it at this moment (09 R169). -/
def tableRead (t : Fin 9) (i : Nat) (s : State) : Byte :=
  match t.val with
  | 0 => memRead s.desc i
  | 1 => memRead s.pattern i
  | 2 => memRead s.targets i
  | 3 => trigByte (s.trigger (Fin.ofNat 20 (i / 8))) (i % 8)
  | 4 => queueByte (s.queue (Fin.ofNat 8 (i / 8))) (i % 8)
  | 5 => groupByte s (Fin.ofNat 8 (i / 4)) (i % 4)
  | 6 => viewByte (s.run (Fin.ofNat 32 (i / 12))) (i % 12)
  | 7 => portByte (s.port (Fin.ofNat 4 (i / 4))) (i % 4)
  | _ => timerByte (s.timer (Fin.ofNat 4 (i / 4))) (i % 4)

/-- A write of byte `i` of the target table (05 R83, R84): refused as busy unless the entry's port, and
the port it would move to, are OFF with empty queues; then refused for an unassigned divider code or
for a port and select that another enabled target names. -/
def writeTarget (i : Nat) (v : Byte) (s : State) : State :=
  let t : TargetId := Fin.ofNat 8 (i / 8)
  let k := i % 8
  let p := targetPort s.targets t
  let p' : Port := Fin.ofNat 4 (bitsOf v 1 2)
  if !(s.port p).offAndEmpty || (k == 0 && p' != p && !(s.port p').offAndEmpty) then
    refuse .entryBusy s
  else if k == 1 && decide (6 ≤ bitsOf v 0 3) then refuse .badValue s
  else if k == 0 && bitOf v 0 && selectTaken s.targets t p' (bitOf v 3) then refuse .badValue s
  else { s with targets := memWrite s.targets i v }

/-- The any-time byte of a trigger map entry (01 R8): refused only for enabling at instance limit 0. -/
def writeTriggerAnyTime (n : Source) (v : Byte) (s : State) : State :=
  let e := s.trigger n
  if bitOf v 0 && e.limit == 0 then refuse .badValue s
  else s.setTrigger n
    { e with enable := bitOf v 0, missNotify := bitOf v 1, group := Fin.ofNat 8 (bitsOf v 4 3) }

/-- A configuration byte of a trigger map entry with value `v` written (01 R7), or none where a field's
value is refused. -/
def triggerConfig (e : TrigEntry) (k : Nat) (v : Byte) : Option TrigEntry :=
  match k with
  | 1 => if h : v.toNat < 128 then some { e with firstDesc := ⟨v.toNat, h⟩ } else none
  | 2 =>
    match edgeOf (bitsOf v 4 2) with
    | none => none
    | some sel =>
      if bitsOf v 0 3 = 0 ∨ 4 < bitsOf v 0 3 then none
      else some { e with limit := BitVec.ofNat 3 (bitsOf v 0 3), tier := tierOf (bitOf v 3),
                         edge := sel }
  | 3 => some { e with stepLimit := v }
  | 4 => (onEndOf (bitsOf v 0 4)).map fun o => { e with onEnd := o }
  | _ => some { e with holdOffTicks := v }

/-- A write of byte `i` of the trigger map (01 R7-R9): any-time, configuration, clearing and read-only
bytes. -/
def writeTrigger (i : Nat) (v : Byte) (s : State) : State :=
  let n : Source := Fin.ofNat 20 (i / 8)
  let k := i % 8
  let e := s.trigger n
  if k = 0 then writeTriggerAnyTime n v s
  else if k = 6 then s.setTrigger n { e with missCount := 0 }
  else if k = 7 then s
  else if e.busy then refuse .entryBusy s
  else
    match triggerConfig e k v with
    | none => refuse .badValue s
    | some e' => s.setTrigger n e'

/-- An attached run holds a current copy naming queue `q` (06 R127, second check). -/
def attachedNames (s : State) (q : QueueId) : Bool :=
  allSlots.any fun n => (s.run n).isAttached && names s q n

/-- The sum of the quotas of the queues other than `q` (06 R127, fourth check). -/
def otherQuotas (s : State) (q : QueueId) : Nat :=
  ((allQueues.filter fun x => x != q).map fun x => (s.queue x).quota).sum

/-- A write of the quota and policy byte of queue `q` (06 R127): five checks in order, the first that
fails refuses the byte; an accepted write leads the IDLE ports waiting on `q` to decisions. -/
def writeQuota (q : QueueId) (v : Byte) (s : State) : State :=
  let Q := s.queue q
  let quota := bitsOf v 0 7
  let policy := policyOf (bitOf v 7)
  if Q.occupancy ≠ 0 ∨ Q.resv ≠ 0 then refuse .quotaBusy s
  else if Q.policy = .lossy ∧ policy = .lossless ∧ attachedNames s q = true then
    refuse .quotaBusy s
  else if 64 < quota then refuse .badValue s
  else if 64 < otherQuotas s q + quota then refuse .quotaSum s
  else if quota < Q.threshold.toNat then refuse .badValue s
  else queueChanged q (s.setQueue q { Q with quota := quota, policy := policy })

/-- A write of byte `i` of the queue config table (06 R126-R128). -/
def writeQueue (i : Nat) (v : Byte) (s : State) : State :=
  let q : QueueId := Fin.ofNat 8 (i / 8)
  let Q := s.queue q
  match i % 8 with
  | 0 => writeQuota q v s
  | 1 => if Q.quota < v.toNat then refuse .badValue s else s.setQueue q { Q with threshold := v }
  | 2 => s.setQueue q
      { Q with group := Fin.ofNat 8 (bitsOf v 0 3), levelEn := bitOf v 4, lostEn := bitOf v 5,
               errEn := bitOf v 6 }
  | _ => s

/-- A write of byte `i` of the group config table (07 R133). -/
def writeGroup (i : Nat) (v : Byte) (s : State) : State :=
  let g : GroupId := Fin.ofNat 8 (i / 4)
  match i % 4 with
  | 0 => s.setGroup g
      { enable := bitOf v 0, tier := groupTierOf (bitOf v 1), rank := BitVec.ofNat 3 (bitsOf v 4 3) }
  | _ => s

/-- The enable field of port `p` written (05 R98): OFF with 1 enters IDLE and decides, IDLE with 0 enters
OFF, every other state keeps itself. -/
def writePortEnable (p : Port) (on : Bool) (s : State) : State :=
  let P := s.port p
  match P.state, on with
  | .off, true =>
    decideWhere (fun x => x == p) (s.setPort p { P with enable := true, state := .idle })
  | .idle, false => s.setPort p { P with enable := false, state := .off }
  | _, _ => s.setPort p { P with enable := on }

/-- A write of byte `i` of the port config table (04 R78). -/
def writePort (i : Nat) (v : Byte) (s : State) : State :=
  let p : Port := Fin.ofNat 4 (i / 4)
  let P := s.port p
  match i % 4 with
  | 0 => writePortEnable p (bitOf v 0) (s.setPort p
      { P with haltOnError := bitOf v 1, haltNotify := bitOf v 2,
               group := Fin.ofNat 8 (bitsOf v 4 3) })
  | 1 => s.setPort p { P with starveLimit := BitVec.ofNat 4 (bitsOf v 0 4) }
  | _ => s

/-- A write of byte `i` of the timer table (08 R157). -/
def writeTimer (i : Nat) (v : Byte) (s : State) : State :=
  let t : TimerId := Fin.ofNat 4 (i / 4)
  let T := s.timer t
  match i % 4 with
  | 0 => s.setTimer t { T with reload := halfOf (highByte T.reload) v }
  | 1 => s.setTimer t { T with reload := halfOf v (lowByte T.reload) }
  | 2 => s.setTimer t { T with mode := timerModeOf (bitOf v 0) }
  | _ => s

/-- A write of byte `i` of table `t`, offered to the table's owner (09 R170). -/
def tableWrite (t : Fin 9) (i : Nat) (v : Byte) (s : State) : State :=
  match t.val with
  | 0 => { s with desc := memWrite s.desc i v }
  | 1 => { s with pattern := memWrite s.pattern i v }
  | 2 => writeTarget i v s
  | 3 => writeTrigger i v s
  | 4 => writeQueue i v s
  | 5 => writeGroup i v s
  | 6 => refuse .readOnly s
  | 7 => writePort i v s
  | _ => writeTimer i v s

/-- The index after an access at index `i` of table `t`: the next one, or 0 at the table's end or beyond
it (09 R169, R170). -/
def nextIndex (t : Fin 9) (i : Nat) : BitVec 10 :=
  if i + 1 < tableSize t then BitVec.ofNat 10 (i + 1) else 0

/-- The byte TDATA reads: that of the selected table at the index, 00h beyond its end (09 R169). -/
def tdataByte (s : State) : Byte :=
  if s.tidx.toNat < tableSize s.tsel then tableRead s.tsel s.tidx.toNat s else 0

end Sys2Proof.Machine
end

