-- ==== Sys2Proof/Machine/Window.lean ====
section
/-! DEFINITION. What each register of the window reads (09 9.2, 10 10.5), and the values behind the four
reads that have a side effect. -/

namespace Sys2Proof.Machine

/-- The byte RQHEAD reads: that of the selected queue's head record at the head-stream pointer, 00h past
its end or where the queue is empty (06 R121). -/
def headByte (s : State) : Byte :=
  match (s.queue s.rqsel).records with
  | [] => 0
  | r :: _ => (recordBytes r).getD s.headPtr 0

/-- The claim of a group: the entry an NCLAIM read pushes (07 R143). -/
def bestEntry (s : State) : Option StackEntry :=
  (bestClaimable s).map fun g => { group := g, tier := (s.group g).tier }

/-- The value of an NCLAIM read (10 10.5): group and tier, or 80h with no claim. -/
def claimValue : Option StackEntry → Byte
  | none => 0x80
  | some e => byteOf (e.group.val + 8 * groupTierCode e.tier)

/-- The value on the data lines of an NCLAIM read (07 R143): the one fixed at the start of the cycle in
progress, or the one a cycle that starts now would fix. -/
def nclaimByte (s : State) : Byte :=
  match s.claim with
  | .closed => claimValue (bestEntry s)
  | .opened choice => claimValue choice

/-- STATUS (09 R166). -/
def statusByte (s : State) : Byte :=
  byteOf (2 * bitVal (irqState s) + 4 * bitVal (anyHalted s) + 8 * bitVal (s.fault != .none))

/-- The stack entry of a tier as NSTACK shows it: present and its group, or 0 (07 R139). -/
def stackPart (s : State) (t : GroupTier) : Nat :=
  match s.stack.find? fun e => e.tier == t with
  | none => 0
  | some e => 8 + e.group.val

/-- The eight MISS latches from source `base` on, those of sources that exist (01 R14). -/
def missByte (s : State) (base : Nat) : Byte :=
  byteOf ((allSources.map fun n =>
    if base ≤ n.val ∧ n.val < base + 8 then bitVal (s.trigger n).missLatch * 2 ^ (n.val - base)
    else 0).sum)

/-- NPEND (07 R135). -/
def pendByte (s : State) : Byte :=
  byteOf ((allGroups.map fun g => bitVal (pendingGroup s g) * 2 ^ g.val).sum)

/-- TIMERSTATE (08 R161). -/
def timerStateByte (s : State) : Byte :=
  byteOf (((List.finRange 4).map fun t : TimerId => bitVal (s.timer t).running * 2 ^ t.val).sum)

/-- PORTSTATE of two ports (05 R90). -/
def portPairByte (s : State) (a b : Port) : Byte :=
  byteOf (portStateCode (s.port a).state + 16 * portStateCode (s.port b).state)

/-- RQFLAGS of the selected queue (06 R119). -/
def flagsByte (s : State) : Byte :=
  let Q := s.queue s.rqsel
  byteOf (bitVal Q.lost + 2 * bitVal Q.err + 4 * bitVal Q.level)

/-- The value register address `a` reads (09 9.2). During RESET# and start-up STATUS reads INIT alone and
every other register 00h (R175, R176). -/
def readRegister (a : Fin 32) (s : State) : Byte :=
  if s.mode ≠ .running then (if a.val = 0x02 then 0x01 else 0)
  else
    match a.val with
    | 0x00 => 0x43
    | 0x01 => 0x01
    | 0x02 => statusByte s
    | 0x03 => 0
    | 0x04 => s.commandArg
    | 0x05 => byteOf (faultCodeVal s.fault + 16 * s.laterFaults.toNat)
    | 0x06 => 0
    | 0x07 => s.tbdiv
    | 0x08 => byteOf s.tsel.val
    | 0x09 => s.tidx.setWidth 8
    | 0x0A => (s.tidx >>> 8).setWidth 8
    | 0x0B => tdataByte s
    | 0x0C => byteOf s.rqsel.val
    | 0x0D => byteOf (s.queue s.rqsel).occupancy
    | 0x0E => flagsByte s
    | 0x0F => (s.queue s.rqsel).lostCount
    | 0x10 => headByte s
    | 0x11 => 0
    | 0x12 => byteOf (bitVal s.nen + 2 * bitVal s.nlow)
    | 0x13 => nclaimByte s
    | 0x14 => 0
    | 0x15 => byteOf (stackPart s .low + 16 * stackPart s .high)
    | 0x16 => pendByte s
    | 0x17 => lowByte s.timestamp
    | 0x18 => s.tsLatch
    | 0x19 => portPairByte s 0 1
    | 0x1A => portPairByte s 2 3
    | 0x1B => timerStateByte s
    | 0x1C => byteOf (freeCount s)
    | 0x1D => missByte s 0
    | 0x1E => missByte s 8
    | _ => missByte s 16

end Sys2Proof.Machine
end

