-- ==== Sys2Proof/Machine/HostBus.lean ====
section
/-! DEFINITION. The host bus interface's own commands: BAD_COMMAND, HFAULT, TSEL, TDATA, read-only and
plain registers (chapter 9). -/

namespace Sys2Proof.Machine

/-- BAD_COMMAND (09 R171): refused with BAD_COMMAND, and nothing else changes. A code that 10 R183 assigns
is another row's write, and no BAD_COMMAND (log 17, DESIGN CHOICE). -/
def execBadCommand (code : Byte) (s : State) : Host.Outcome State Fault Refusal :=
  if assignedCodes.contains code then .refused (.assignedCode code)
  else .next (hostWrite (refuse .badCommand) s)

/-- HFAULT_WRITE (09 R174), whatever the value written. -/
def execHfaultWrite (_v : Byte) (s : State) : Host.Outcome State Fault Refusal :=
  .next (hostWrite clearFault s)

/-- The value `v` written to TSEL (09 R167). -/
def selectTable (v : Byte) (s : State) : State :=
  match argOf 9 v with
  | none => refuse .badArgument s
  | some t => { s with tsel := t, tidx := 0 }

/-- TSEL_WRITE (09 R167). -/
def execTselWrite (v : Byte) (s : State) : Host.Outcome State Fault Refusal :=
  .next (hostWrite (selectTable v) s)

/-- A read of TDATA (09 R169): the byte at the index, which moves on. -/
def readTdata (s : State) : State :=
  { s with dataOut := tdataByte s, tidx := nextIndex s.tsel s.tidx.toNat }

/-- TDATA_READ (09 R169). -/
def execTdataRead (s : State) : Host.Outcome State Fault Refusal :=
  .next (hostRead readTdata s)

/-- The value `v` written to TDATA (09 R170): offered to the table's owner, or refused beyond the table;
the index moves on either way. -/
def writeTdata (v : Byte) (s : State) : State :=
  let i := s.tidx.toNat
  let s1 := if i < tableSize s.tsel then tableWrite s.tsel i v s else refuse .badArgument s
  { s1 with tidx := nextIndex s.tsel i }

/-- TDATA_WRITE (09 R170). -/
def execTdataWrite (v : Byte) (s : State) : Host.Outcome State Fault Refusal :=
  .next (hostWrite (writeTdata v) s)

/-- READ_ONLY_WRITE (09 R165): refused with READ_ONLY, without the side effects a read would have. -/
def execReadOnlyWrite (_reg : ReadOnlyReg) (_v : Byte) (s : State) :
    Host.Outcome State Fault Refusal :=
  .next (hostWrite (refuse .readOnly) s)

/-- The value `v` written to a register that only stores (09 R168, R171; 08 R153). -/
def storeRegister (reg : PlainReg) (v : Byte) (s : State) : State :=
  match reg with
  | .commandArg => { s with commandArg := v }
  | .tbdiv => { s with tbdiv := v }
  | .tidxLo => { s with tidx := BitVec.ofNat 10 (s.tidx.toNat / 256 * 256 + v.toNat) }
  | .tidxHi => { s with tidx := BitVec.ofNat 10 (bitsOf v 0 2 * 256 + s.tidx.toNat % 256) }

/-- REGISTER_WRITE (09 R165). -/
def execRegisterWrite (reg : PlainReg) (v : Byte) (s : State) : Host.Outcome State Fault Refusal :=
  .next (hostWrite (storeRegister reg v) s)

end Sys2Proof.Machine
end

