-- ==== Sys2Proof/Machine/Notification.lean ====
section
/-! DEFINITION. The notification controller's commands: NCTRL_WRITE, NCLAIM_READ and NEND_WRITE
(chapter 7). -/

namespace Sys2Proof.Machine

/-- The value `v` written to NCTRL (07 R137): both enables together. -/
def writeNctrl (v : Byte) (s : State) : State := { s with nen := bitOf v 0, nlow := bitOf v 1 }

/-- NCTRL_WRITE (07 R137). -/
def execNctrlWrite (v : Byte) (s : State) : Host.Outcome State Fault Refusal :=
  .next (hostWrite (writeNctrl v) s)

/-- The start of an NCLAIM read cycle (07 R143): the best claimable group is chosen and its value placed on
the data lines. -/
def claimStart (s : State) : State :=
  { s with claim := .opened (bestEntry s), dataOut := claimValue (bestEntry s) }

/-- The rising edge of an NCLAIM read cycle (07 R143): the group chosen at its start is pushed. -/
def claimEdge (s : State) : State :=
  match s.claim with
  | .closed => s
  | .opened none => { s with claim := .closed }
  | .opened (some e) => { s with claim := .closed, stack := e :: s.stack }

/-- NCLAIM_READ (07 R143, R144): the whole cycle with no event between its two parts, or one part. An
edge without a cycle in progress is no access (09 R163). -/
def execNclaimRead (part : ReadPart) (s : State) : Host.Outcome State Fault Refusal :=
  match part with
  | .whole => .next (hostRead (fun t => claimEdge (claimStart t)) s)
  | .start => .next (hostRead claimStart s)
  | .edge => .next (whenRunning claimEdge s)

/-- The value `v` written to NEND (07 R146). -/
def endService (v : Byte) (s : State) : State :=
  match argOf 8 v with
  | none => refuse .badArgument s
  | some g =>
    match s.stack with
    | [] => refuse .endEmpty s
    | e :: rest => if e.group = g then { s with stack := rest } else refuse .endMismatch s

/-- NEND_WRITE (07 R146). -/
def execNendWrite (v : Byte) (s : State) : Host.Outcome State Fault Refusal :=
  .next (hostWrite (endService v) s)

end Sys2Proof.Machine
end

