-- ==== Sys2Proof/Machine/Serial.lean ====
section
/-! DEFINITION. The frame on the wire (chapter 5, 5.3): its clock edges, launch and sample points by mode,
bit order and lengths; how far a frame has come, and the levels of a port's output pins and of IRQ#.
Points of a frame are counted in half bit periods from select assertion. -/

namespace Sys2Proof.Machine

-- Bits

/-- The eight levels of a byte on Pn_DO, first bit first, in the target's bit order (05 R89). -/
def wireBits (lsbFirst : Bool) (b : Byte) : List Bool :=
  if lsbFirst then (List.range 8).map fun i => bitOf b i
  else (List.range 8).map fun i => bitOf b (7 - i)

/-- A byte with its bits in the opposite order. -/
def reverseBits (b : Byte) : Byte :=
  byteOf (128 * bitVal (bitOf b 0) + 64 * bitVal (bitOf b 1) + 32 * bitVal (bitOf b 2)
    + 16 * bitVal (bitOf b 3) + 8 * bitVal (bitOf b 4) + 4 * bitVal (bitOf b 5)
    + 2 * bitVal (bitOf b 6) + bitVal (bitOf b 7))

/-- The byte assembled from the eight levels sampled, bit `i` the `i`-th sampled (05 R89): with LSB first
the first bit sampled becomes the least significant bit. -/
def assembleBits (lsbFirst : Bool) (bits : Byte) : Byte := if lsbFirst then bits else reverseBits bits

-- Clock edges

/-- A clock edge on Pn_CLK. -/
inductive Edge where
  | rising | falling
  deriving DecidableEq, Repr

/-- The leading edge of a clock pulse, away from the idle level (05 R87). -/
def leadingEdge (m : SerialMode) : Edge := if modeIdleHigh m then .falling else .rising

/-- The edge on which bits after the first are launched (05 R87). -/
def launchEdge : SerialMode → Edge
  | .a => .falling
  | .b => .rising
  | .c => .rising
  | .d => .falling

/-- The edge on which bits are sampled with delayed sample 0 (05 R87). -/
def sampleEdge : SerialMode → Edge
  | .a => .rising
  | .b => .falling
  | .c => .falling
  | .d => .rising

/-- The point at which edge `e` of the pulse of bit period `b` falls (05 R87): the leading edge half a bit
period into it, the trailing edge at its end. -/
def edgePoint (m : SerialMode) (e : Edge) (b : Nat) : Nat :=
  if e = leadingEdge m then 2 * b + 1 else 2 * b + 2

/-- The point at which bit `b` is launched (05 R87): on the launch edge of its own bit period, or, where
that is the trailing edge, on the one of the bit period before; the first bit then at select assertion. -/
def launchPoint (m : SerialMode) (b : Nat) : Nat :=
  if modeLaunchesAtSelect m then 2 * b else edgePoint m (launchEdge m) b

/-- The point at which bit `b` is sampled (05 R87); with delayed sample on the launch edge that follows, or
at the extra trailing point, half a bit period later (R88). -/
def samplePoint (m : SerialMode) (delayed : Bool) (b : Nat) : Nat :=
  edgePoint m (sampleEdge m) b + bitVal delayed

-- Lengths

/-- The part clocks of one bit period (05 R86, 10 R180). -/
def bitPeriodClocks (divider : BitVec 3) : Nat := 2 ^ (divider.toNat + 1)

/-- The bytes of a frame (05 R86). -/
def Frame.bytes (f : Frame) : Nat := f.txLen + f.rxLen

/-- How long a frame holds its select line active, in half bit periods (05 R86, R88): one more where
delayed sample needs the extra trailing sample point of modes B and D. -/
def Frame.endPoint (f : Frame) : Nat :=
  16 * f.bytes + if f.delayed && !modeLaunchesAtSelect f.mode then 1 else 0

/-- The part clocks from frame start to a point of the frame (05 R86): a clock that changes its idle level
at frame start puts select assertion half a bit period after it (R91). -/
def Frame.clocksTo (f : Frame) (point : Nat) : Nat :=
  (bitVal f.leadIn + point) * (bitPeriodClocks f.divider / 2)

-- How far a frame has come

/-- The half bit periods since select assertion; none before it (05 R91). -/
def Frame.point (f : Frame) : Option Nat :=
  let h := f.clocks / (bitPeriodClocks f.divider / 2)
  if h < bitVal f.leadIn then none else some (h - bitVal f.leadIn)

/-- The frame at an event that falls at `point`. -/
def Frame.reached (f : Frame) (point : Nat) : Frame :=
  { f with clocks := max f.clocks (f.clocksTo point) }

/-- The byte of the frame whose bit periods stand at its point. -/
def Frame.byteIndex (f : Frame) : Nat := f.point.getD 0 / 16

/-- A byte is in progress (05 R101): its first bit has been launched and its last bit period has not
ended. A transmit byte is launched when it is read (02 R33). -/
def byteInProgress (f : Frame) : Bool :=
  match f.point with
  | none => false
  | some h =>
    let k := h / 16
    if k < f.txLen then decide (k < f.sent.length)
    else decide (k < f.bytes) && decide (launchPoint f.mode (8 * k) ≤ h)

/-- A byte is in progress when a command that cuts the frame of port `p` is taken (05 R101); a port already
finishing a cut byte has it in progress. -/
def cutsByte (s : State) (p : Port) : Bool :=
  match (s.port p).attached, (s.port p).frame with
  | some _, some f => byteInProgress f
  | some _, none => false
  | none, _ => true

/-- The point of the next event of frame `f` of a port record: TRANSMIT_BYTE_BEGINS, RECEIVE_BYTE_SAMPLED,
FRAME_END, or CUT_BYTE_END where the run has been cut off (05 R101). -/
def nextPoint (s : State) (P : PortRec) (f : Frame) : Nat :=
  match P.attached with
  | none => 16 * (f.byteIndex + 1)
  | some n =>
    let got := (s.run n).capture.length
    if f.sent.length < f.txLen then launchPoint f.mode (8 * f.sent.length)
    else if got < f.rxLen then samplePoint f.mode f.delayed (8 * (f.txLen + got) + 7)
    else f.endPoint

/-- A port while `k` part clocks pass: its frame moves on, up to just before its next event, which is a
command of its own (log 4, DESIGN CHOICE). -/
def passPort (s : State) (k : Nat) (P : PortRec) : PortRec :=
  match P.frame with
  | none => P
  | some f =>
    if P.state = .shifting then
      { P with frame := some { f with
          clocks := max f.clocks (min (f.clocks + k) (f.clocksTo (nextPoint s P f) - 1)) } }
    else P

/-- `k` part clocks pass without an event: the frames move on, and IRQ# takes the state of the claimable
set that stands at them (11 R186). -/
def passClocks (k : Nat) (s : State) : State :=
  { s with ports := mapAll (passPort s k) s.ports, irqSample := irqState s }

-- Output pins

/-- The byte a frame sends at position `k`: the pattern byte read when it began, or the target's fill byte
in the receive phase (02 R33, 05 R89). -/
def frameByteOut (f : Frame) (k : Nat) : Byte :=
  if k < f.txLen then f.sent.getD k 0 else f.fill

/-- Level on Pn_DO of a frame at point `h` (05 R81, R87, R89): the bit launched last; low before the first
launch and after the last bit period. -/
def frameData (f : Frame) (h : Nat) : Bool :=
  if launchPoint f.mode 0 ≤ h ∧ h < 16 * f.bytes then
    let b := (h - launchPoint f.mode 0) / 2
    (wireBits f.lsbFirst (frameByteOut f (b / 8))).getD (b % 8) false
  else false

/-- The frame that port `p` is shifting, at the point it has come to since select assertion. -/
def onWire (s : State) (p : Port) : Option (Frame × Nat) :=
  if s.mode = .running ∧ (s.port p).state = .shifting then
    (s.port p).frame.bind fun f => f.point.map fun h => (f, h)
  else none

/-- Level of Pn_SEL0# (`line` false) or Pn_SEL1# (05 R81, R91, R104): low only from select assertion on
while the port shifts a frame for the target that owns the line. -/
def selectPin (s : State) (p : Port) (line : Bool) : Bool :=
  match onWire s p with
  | some (f, _) => f.select != line
  | none => true

/-- Level at which Pn_CLK rests outside clock pulses (05 R81, R104). -/
def clockPinRest (s : State) (p : Port) : Bool := s.mode == .running && (s.port p).clkIdle

/-- Level of Pn_CLK (05 R81, R87): one pulse in each bit period of the frame, in its second half. -/
def clockPin (s : State) (p : Port) : Bool :=
  match onWire s p with
  | some (f, h) => clockPinRest s p != (h % 2 == 1 && decide (h < 16 * f.bytes))
  | none => clockPinRest s p

/-- Level of Pn_DO (05 R81, R89, R103, R104). -/
def dataPin (s : State) (p : Port) : Bool :=
  match onWire s p with
  | some (f, h) => frameData f h
  | none => false

/-- Level of IRQ# (07 R142, R151; 11 R186): low while the claimable set was not empty at the last part
clock, before the output delay (log 14, DESIGN CHOICE). -/
def irqPin (s : State) : Bool := !(s.mode == .running && s.irqSample)

end Sys2Proof.Machine
end

