-- ==== Sys2Proof/Machine/PortEvents.lean ====
section
/-! DEFINITION. The events of the serial ports: TRANSMIT_BYTE_BEGINS, RECEIVE_BYTE_SAMPLED, FRAME_END,
READY_ARRIVAL, READY_TIMEOUT_EXPIRY, GAP_EXPIRY and CUT_BYTE_END. An event that finds its port in a state
in which the manual says it does not occur, or has no effect, leaves the state as it is (03 R62, 05 R94,
R103, log 6, DEDUCED). -/

namespace Sys2Proof.Machine

/-- The next transmit byte of the frame of port `p` begins (02 R33): its first bit is launched, and it is
read from pattern memory at this moment. A cut frame reads no further byte (R34). -/
def transmitBegins (p : Port) (s : State) : State :=
  match (s.port p).attached, (s.port p).frame with
  | some n, some f =>
    let c := (s.run n).copy
    if (s.port p).state = .shifting ∧ f.sent.length < copyTxLen c then
      let b := memRead s.pattern (copyOffset c + f.sent.length)
      s.setPort p { s.port p with
        frame := some { f.reached (launchPoint f.mode (8 * f.sent.length)) with
          sent := f.sent ++ [b] } }
    else s
  | _, _ => s

/-- TRANSMIT_BYTE_BEGINS (02 R33). -/
def execTransmitByteBegins (p : Port) (s : State) : Host.Outcome State Fault Refusal :=
  .next (whenRunning (transmitBegins p) s)

/-- The last bit of a received byte of the frame of port `p` is sampled (03 R43, 05 R89): the assembled
byte is appended to the run's capture buffer. Receive bytes follow the transmit bytes. -/
def receiveSampled (p : Port) (bits : Byte) (s : State) : State :=
  match (s.port p).attached, (s.port p).frame with
  | some n, some f =>
    let r := s.run n
    if (s.port p).state = .shifting ∧ copyTxLen r.copy ≤ f.sent.length
        ∧ r.capture.length < copyRxLen r.copy then
      (s.setRun n { r with capture := r.capture ++ [assembleBits f.lsbFirst bits] }).setPort p
        { s.port p with
          frame := some (f.reached
            (samplePoint f.mode f.delayed (8 * (f.txLen + r.capture.length) + 7))) }
    else s
  | _, _ => s

/-- RECEIVE_BYTE_SAMPLED (03 R43). -/
def execReceiveByteSampled (p : Port) (bits : Byte) (s : State) : Host.Outcome State Fault Refusal :=
  .next (whenRunning (receiveSampled p bits) s)

/-- The port enters AWAIT at its frame end (03 R44, 05 R92, R93): the run becomes AWAITING, the ready
polarity is read and the ready timeout of the copy starts. -/
def enterAwait (p : Port) (n : Slot) (s : State) : State :=
  let r := s.run n
  let P := s.port p
  (s.setRun n { r with state := .awaiting }).setPort p
    { P with state := .await, interval := some (copyTimeout r.copy).toNat, frame := none,
             awaitLow := targetReadyLow s.targets (copyTarget r.copy) }

/-- The ready line at `level` is at the active level that the port holds (05 R94). -/
def readyAt (s : State) (p : Port) (level : Bool) : Bool := level != (s.port p).awaitLow

/-- The frame of port `p` ends (05 R92, R94): with AWAIT 0 the step succeeds; with AWAIT 1 the port enters
AWAIT, and a line that is ready already ends the wait in the same event. -/
def frameEnds (p : Port) (ready : Bool) (s : State) : State :=
  match (s.port p).attached, (s.port p).frame with
  | some n, some f =>
    if (s.port p).state = .shifting ∧ frameComplete s n f = true then
      if copyAwait (s.run n).copy then
        let s1 := enterAwait p n s
        if readyAt s1 p ready then stepSuccess p n s1 else s1
      else stepSuccess p n s
    else s
  | _, _ => s

/-- FRAME_END (05 R92). -/
def execFrameEnd (p : Port) (ready : Bool) (s : State) : Host.Outcome State Fault Refusal :=
  .next (whenRunning (frameEnds p ready) s)

/-- The ready line of port `p` becomes `level` (05 R94): in AWAIT the active level ends the wait with step
success; in any other state the change is ignored (R81). -/
def readyArrives (p : Port) (level : Bool) (s : State) : State :=
  match (s.port p).attached with
  | some n =>
    if (s.port p).state = .await ∧ readyAt s p level = true then stepSuccess p n s else s
  | none => s

/-- READY_ARRIVAL (05 R94). -/
def execReadyArrival (p : Port) (level : Bool) (s : State) : Host.Outcome State Fault Refusal :=
  .next (whenRunning (readyArrives p level) s)

/-- What the run pool decides at a timeout expiry (05 R95): the ABORTED end of a marked run (03 R57), a
retry (R46) or a step failure (R55). -/
def timeoutOutcome (p : Port) (n : Slot) (s : State) : State :=
  if (s.run n).mark then endAtStep p n .aborted s
  else if (s.run n).retries ≠ 0 then retryStep p n s
  else failStep p n s

/-- The ready timeout of port `p` expires (05 R95), its count having reached its last tick. -/
def readyTimesOut (p : Port) (s : State) : State :=
  match (s.port p).attached with
  | some n =>
    if (s.port p).state = .await ∧ (s.port p).interval = some 0 then timeoutOutcome p n s else s
  | none => s

/-- READY_TIMEOUT_EXPIRY (05 R95). -/
def execReadyTimeoutExpiry (p : Port) (s : State) : Host.Outcome State Fault Refusal :=
  .next (whenRunning (readyTimesOut p) s)

/-- The gap of port `p` expires (05 R97), its count having reached its last tick; a port that becomes
IDLE makes a grant decision. -/
def gapExpires (p : Port) (s : State) : State :=
  if (s.port p).state = .gap ∧ (s.port p).interval = some 0 then
    decideWhere (fun x => x == p) (gapOver p s)
  else s

/-- GAP_EXPIRY (05 R97). -/
def execGapExpiry (p : Port) (s : State) : Host.Outcome State Fault Refusal :=
  .next (whenRunning (gapExpires p) s)

/-- The port is left as its cut indicator says (05 R101): ABORT enters GAP with the target's gap, RESET
goes OFF, or IDLE with a decision where the enable has been written 1 meanwhile. -/
def cutFinished (p : Port) (s : State) : State :=
  let P := s.port p
  match P.cut with
  | .none => s
  | .abort => decideWhere (fun x => x == p) (enterGap p s)
  | .reset =>
    decideWhere (fun x => x == p)
      (s.setPort p { P with state := if P.enable then .idle else .off, interval := none,
                            cut := .none, frame := none })

/-- The byte being finished on port `p` after a cut ends (05 R101). -/
def cutByteEnds (p : Port) (s : State) : State :=
  if (s.port p).state = .shifting ∧ (s.port p).attached = none then cutFinished p s else s

/-- CUT_BYTE_END (05 R101). -/
def execCutByteEnd (p : Port) (s : State) : Host.Outcome State Fault Refusal :=
  .next (whenRunning (cutByteEnds p) s)

end Sys2Proof.Machine
end

