-- ==== Sys2Proof/Machine/Triggers.lean ====
section
/-! DEFINITION. The trigger unit's commands: TRIGGER_LINE_EDGE, HOLD_OFF_EXPIRY,
INTERVAL_TIMER_EXPIRY, SWTRIG_WRITE, CANCEL_TRIGGER and MISS_LATCH_CLEAR (chapter 1, 08 R159). -/

namespace Sys2Proof.Machine

/-- The hold-off that an accepted edge starts (01 R3): none where H is 0. -/
def startedHoldOff (h : Byte) : Option Nat := if h = 0 then none else some h.toNat

/-- The detector of line `n` sees the level `level` (01 R2): an edge where it differs from the reference,
judged by the edge select and, where selected, by the hold-off. -/
def lineSees (n : LineId) (level : Bool) (s : State) : State :=
  let l := s.line n
  let e := s.trigger (lineSource n)
  if l.ref = level then s
  else
    let s1 := s.setLine n { l with ref := level }
    if selectedEdge e.edge level && l.holdOff.isNone then
      triggerEvent (lineSource n)
        (s1.setLine n { l with ref := level, holdOff := startedHoldOff e.holdOffTicks })
    else s1

/-- TRIGGER_LINE_EDGE (01 R2): the pin takes its new level; the detector sees it while the part runs. -/
def execTriggerLineEdge (n : LineId) (level : Bool) (s : State) : Host.Outcome State Fault Refusal :=
  .next (whenRunning (lineSees n level) (s.setLine n { s.line n with pin := level }))

/-- The hold-off of line `n` becomes idle at its last tick (01 R3). -/
def holdOffOver (n : LineId) (s : State) : State :=
  if (s.line n).holdOff = some 0 then s.setLine n { s.line n with holdOff := none } else s

/-- HOLD_OFF_EXPIRY (01 R3); where no hold-off of the line has counted its ticks it does not occur. -/
def execHoldOffExpiry (n : LineId) (s : State) : Host.Outcome State Fault Refusal :=
  .next (whenRunning (holdOffOver n) s)

/-- Timer `t` after its expiry (08 R159, steps 2 and 3). -/
def expiredTimer (t : Timer) : Timer :=
  match t.mode with
  | .oneShot => { t with running := false, count := 0 }
  | .periodic =>
    if t.reload = 0 then { t with running := false, count := 0 } else { t with count := t.reload }

/-- Timer `t` expires (08 R159): its trigger event is delivered, then it stops or reloads. -/
def timerExpires (t : TimerId) (s : State) : State :=
  if (s.timer t).running ∧ (s.timer t).count = 0 then
    let s1 := triggerEvent (timerSource t) s
    s1.setTimer t (expiredTimer (s1.timer t))
  else s

/-- INTERVAL_TIMER_EXPIRY (08 R159); where no tick has brought the running timer's count to 0 it does not
occur. -/
def execIntervalTimerExpiry (t : TimerId) (s : State) : Host.Outcome State Fault Refusal :=
  .next (whenRunning (timerExpires t) s)

/-- The value `v` written to SWTRIG (01 R5). -/
def softwareTrigger (v : Byte) (s : State) : State :=
  match argOf 8 v with
  | none => refuse .badArgument s
  | some n => triggerEvent (swSource n) s

/-- SWTRIG_WRITE (01 R5). -/
def execSwtrigWrite (v : Byte) (s : State) : Host.Outcome State Fault Refusal :=
  .next (hostWrite (softwareTrigger v) s)

/-- CANCEL_TRIGGER at one slot (01 R16): a PENDING run of the source ends ABORTED, an attached one is
marked. -/
def cancelSlot (src : Source) (n : Slot) (s : State) : State :=
  let r := s.run n
  if r.source = src then
    match r.state with
    | .free => s
    | .pending => endPending n s
    | .active => s.setRun n { r with mark := true }
    | .awaiting => s.setRun n { r with mark := true }
  else s

/-- CANCEL_TRIGGER of source `src` (01 R16), slot by slot in rising order. -/
def cancelSource (src : Source) (s : State) : State :=
  allSlots.foldl (fun st n => cancelSlot src n st) s

/-- CANCEL_TRIGGER (01 R16). -/
def execCancelTrigger (s : State) : Host.Outcome State Fault Refusal :=
  .next (hostWrite (withArg 20 cancelSource) s)

/-- The MISS latch of source `n` cleared (01 R14). -/
def clearMissLatch (n : Source) (s : State) : State :=
  s.setTrigger n { s.trigger n with missLatch := false }

/-- The latches whose bits of MISS0-MISS2 are written 1 are cleared, those of sources that exist
(01 R14, 10 R182). -/
def clearMissLatches (reg : Fin 3) (v : Byte) (s : State) : State :=
  allSources.foldl
    (fun st n => if n.val / 8 = reg.val ∧ bitOf v (n.val % 8) = true then clearMissLatch n st else st) s

/-- MISS_LATCH_CLEAR (01 R14). -/
def execMissLatchClear (reg : Fin 3) (v : Byte) (s : State) : Host.Outcome State Fault Refusal :=
  .next (hostWrite (clearMissLatches reg v) s)

end Sys2Proof.Machine
end

