-- ==== Sys2Proof/Machine/Expiries.lean ====
section
/-! DEFINITION. The expiries that the last tick has made due, taken together where no command has taken
them: a tick's expiries come before the next part clock (08 R154, R156, R159; log 5, DEDUCED). -/

namespace Sys2Proof.Machine

/-- The counts that expire (08 8.3). -/
inductive Expiry where
  | holdOff (n : LineId)
  | timer (t : TimerId)
  | readyTimeout (p : Port)
  | gap (p : Port)
  deriving DecidableEq, Repr

/-- The expiry of the interval count of port `p`, where the last tick has made it due. -/
def duePort (s : State) (p : Port) : Option Expiry :=
  if (s.port p).interval = some 0 then
    match (s.port p).state with
    | .await => if (s.port p).attached.isSome then some (.readyTimeout p) else none
    | .gap => some (.gap p)
    | _ => none
  else none

/-- The expiries that are due. -/
def dueExpiries (s : State) : List Expiry :=
  ((List.finRange 8).filter fun n => (s.line n).holdOff == some 0).map .holdOff
  ++ ((List.finRange 4).filter fun t => (s.timer t).running && (s.timer t).count == 0).map .timer
  ++ allPorts.filterMap (duePort s)

/-- One expiry taken. -/
def takeExpiry (e : Expiry) (s : State) : State :=
  match e with
  | .holdOff n => holdOffOver n s
  | .timer t => timerExpires t s
  | .readyTimeout p => readyTimesOut p s
  | .gap p => gapExpires p s

/-- The due expiries taken one after the other, in an order that is open where there are several. -/
def settleDue (s : State) : State :=
  let o := drawOrder (dueExpiries s) s
  o.1.foldl (fun st e => takeExpiry e st) o.2

end Sys2Proof.Machine
end

