-- ==== Sys2Proof/Machine/TimeBase.lean ====
section
/-! DEFINITION. The time base and the interval timers: TICK, TIMER_START, TIMER_STOP, TSTAMP_LO_READ
(chapter 8). -/

namespace Sys2Proof.Machine

/-- A count of ticks left takes a tick; at 0 its expiry is due (08 R156; log 5, DEDUCED). -/
def countTick : Option Nat → Option Nat
  | none => none
  | some k => some (k - 1)

/-- A line takes a tick (08 R154): its hold-off, if it runs. -/
def tickLine (l : Line) : Line := { l with holdOff := countTick l.holdOff }

/-- A port takes a tick (08 R154): its ready timeout in AWAIT, its gap in GAP. -/
def tickPort (p : PortRec) : PortRec :=
  if p.state = .await ∨ p.state = .gap then { p with interval := countTick p.interval } else p

/-- A timer takes a tick (08 R159): the count of a running timer falls by 1. -/
def tickTimer (t : Timer) : Timer :=
  if t.running ∧ t.count ≠ 0 then { t with count := t.count - 1 } else t

/-- The time base produces a tick (08 R153, R154): the part-clock count starts again under TBDIV as it now
stands, the timestamp rises by 1 and every running count takes the tick. -/
def takeTick (s : State) : State :=
  { s with
    tickDiv := s.tbdiv, clockCount := 0, timestamp := s.timestamp + 1
    lines := mapAll tickLine s.lines
    ports := mapAll tickPort s.ports
    timers := mapAll tickTimer s.timers }

/-- The part-clock count reaches TBDIV + 1 (08 R153): the expiries of the tick before are taken, the part
clocks left of the tick period pass, and the tick occurs (log 20, DEDUCED). -/
def reachTick (s : State) : State :=
  let s1 := settleDue s
  takeTick (passClocks (s1.tickDiv.toNat + 1 - s1.clockCount) s1)

/-- TICK (08 R153). -/
def execTick (s : State) : Host.Outcome State Fault Refusal :=
  .next (whenRunning reachTick s)

/-- A part clock passes while no command waits (08 R153; log 1, DESIGN CHOICE): the expiries of the last tick
are taken, and the part-clock count of the tick in progress rises; at TBDIV + 1 the tick occurs. -/
def partClock (s : State) : State :=
  let s1 := passClocks 1 (settleDue s)
  if s1.clockCount < s1.tickDiv.toNat then { s1 with clockCount := s1.clockCount + 1 }
  else takeTick s1

/-- `k` part clocks pass before a command that says so (log 4, DESIGN CHOICE). -/
def afterClocks : Nat → State → State
  | 0, s => s
  | k + 1, s => afterClocks k (partClock s)

/-- TIMER_START of timer `t` (08 R158): an expiry that the last tick has made due comes first; then the
reload is loaded, or a reload of 0 refused. -/
def startTimer (t : TimerId) (s : State) : State :=
  let s1 := timerExpires t s
  let T := s1.timer t
  if T.reload = 0 then refuse .badArgument s1
  else s1.setTimer t { T with count := T.reload, running := true }

/-- TIMER_START (08 R158). -/
def execTimerStart (s : State) : Host.Outcome State Fault Refusal :=
  .next (hostWrite (withArg 4 startTimer) s)

/-- TIMER_STOP of timer `t` (08 R160), after an expiry that the last tick has made due. -/
def stopTimer (t : TimerId) (s : State) : State :=
  let s1 := timerExpires t s
  s1.setTimer t { s1.timer t with running := false, count := 0 }

/-- TIMER_STOP (08 R160). -/
def execTimerStop (s : State) : Host.Outcome State Fault Refusal :=
  .next (hostWrite (withArg 4 stopTimer) s)

/-- A read of TSTAMP_LO (08 R155): the low byte, and the high byte of the same value into the latch. -/
def readTimestamp (s : State) : State :=
  { s with dataOut := lowByte s.timestamp, tsLatch := highByte s.timestamp }

/-- TSTAMP_LO_READ (08 R155). -/
def execTstampLoRead (s : State) : Host.Outcome State Fault Refusal :=
  .next (hostRead readTimestamp s)

end Sys2Proof.Machine
end

