-- ==== Sys2Proof/Machine/PortCommands.lean ====
section
/-! DEFINITION. PORT_RESET, PORT_RESUME and PORT_ABORT. -/

namespace Sys2Proof.Machine

/-- PORT_ABORT of port `p` (05 R100, 03 R62): the attached run ends ABORTED. In SHIFTING the port finishes
the byte in progress first, or releases select at once where none is (R101); from AWAIT it enters GAP; a
kept run's gap goes on. Without an attached run it has no effect. -/
def abortPort (p : Port) (s : State) : State :=
  match (s.port p).attached with
  | none => s
  | some n =>
    let s1 := abortAttached p n s
    match (s.port p).state with
    | .shifting =>
      let s2 := s1.setPort p { s1.port p with cut := .abort }
      if cutsByte s p then s2 else cutFinished p s2
    | .await => decideWhere (fun x => x == p) (enterGap p s1)
    | .gap => s1
    | .off => s
    | .idle => s
    | .halted => s

/-- PORT_ABORT (05 R100), `later` part clocks after the step before (log 4, DESIGN CHOICE). -/
def execPortAbort (later : Nat) (s : State) : Host.Outcome State Fault Refusal :=
  .next (hostWrite (withArg 4 abortPort) (whenRunning (afterClocks later) s))

/-- The attached run of port `p`, if there is one, ends ABORTED (03 R63, step 1). -/
def resetAttached (p : Port) (s : State) : State :=
  match (s.port p).attached with
  | none => s
  | some n => abortAttached p n s

/-- Both tier queues of port `p` are drained, URGENT from head to tail, then NORMAL (03 R63, steps 2
and 3). -/
def drainQueues (p : Port) (s : State) : State :=
  let s1 := (s.port p).urgent.foldl (fun st n => endPending n st) s
  (s1.port p).normal.foldl (fun st n => endPending n st) s1

/-- Port `p` after PORT_RESET (05 R102, 04 R79): disabled, its starvation counter 0 and its queues empty;
OFF, or finishing the byte in progress with the cut indicator RESET. -/
def portAfterReset (p : Port) (finishing : Bool) (s : State) : State :=
  let P := { s.port p with enable := false, starveCount := 0, urgent := [], normal := [] }
  s.setPort p
    (if finishing then { P with cut := .reset }
     else { P with state := .off, interval := none, cut := .none, frame := none })

/-- PORT_RESET of port `p` (05 R102, 03 R63). -/
def resetPortCmd (p : Port) (s : State) : State :=
  let finishing := (s.port p).state == .shifting && cutsByte s p
  portAfterReset p finishing (drainQueues p (resetAttached p s))

/-- PORT_RESET (05 R102), `later` part clocks after the step before (log 4, DESIGN CHOICE). -/
def execPortReset (later : Nat) (s : State) : Host.Outcome State Fault Refusal :=
  .next (hostWrite (withArg 4 resetPortCmd) (whenRunning (afterClocks later) s))

/-- PORT_RESUME of port `p` (04 R76): HALTED goes to IDLE with a decision where enabled, to OFF where
not; in every other state it has no effect. -/
def resumePort (p : Port) (s : State) : State :=
  let P := s.port p
  if P.state = .halted then
    decideWhere (fun x => x == p)
      (s.setPort p { P with state := if P.enable then .idle else .off })
  else s

/-- PORT_RESUME (04 R76). -/
def execPortResume (s : State) : Host.Outcome State Fault Refusal :=
  .next (hostWrite (withArg 4 resumePort) s)

end Sys2Proof.Machine
end

