-- ==== Sys2Proof/Machine/Resets.lean ====
section
/-! DEFINITION. DEVICE_RESET, RESET_RELEASE, START_UP_END and ENGINE_RESET. -/

namespace Sys2Proof.Machine

/-- DEVICE_RESET (09 R175): every block stops at once, since no event reaches any block while the part is
held in reset; what the blocks hold can no longer be seen and is set by the start-up clear (log 18, DEDUCED).
An NCLAIM read cycle in progress ends without a push, its value left on the data lines (log 9, DESIGN
CHOICE). -/
def execDeviceReset (s : State) : Host.Outcome State Fault Refusal :=
  .next { s with mode := .inReset, claim := .closed }

/-- RESET_RELEASE (09 R176): the start-up memory clear begins; with RESET# high already, no effect. -/
def execResetRelease (s : State) : Host.Outcome State Fault Refusal :=
  .next (if s.mode = .inReset then { s with mode := .startUp } else s)

/-- The part at the end of start-up (09 R176, R177): every table reads 00h, every block holds its
device-reset values, and the edge detectors take their reference levels from the lines (01 R2). -/
def startedUp (s : State) : State :=
  { State.reset with
    lines := mapAll (fun l => { pin := l.pin, ref := l.pin, holdOff := none }) s.lines
    dataOut := s.dataOut, raceCount := s.raceCount, pending := s.pending }

/-- START_UP_END (09 R176); outside the start-up clear it does not occur. -/
def execStartUpEnd (s : State) : Host.Outcome State Fault Refusal :=
  .next (if s.mode = .startUp then startedUp s else s)

/-- A trigger map entry at ENGINE_RESET (01 R19). -/
def engineResetEntry (e : TrigEntry) : TrigEntry :=
  { e with missCount := 0, lastMiss := .none, live := 0, missLatch := false }

/-- A port at ENGINE_RESET (04 R80, 05 R103): OFF at once, its frame cut, its queues empty; the clock
target and the settings are kept. -/
def engineResetPort (p : PortRec) : PortRec :=
  { p with enable := false, starveCount := 0, urgent := [], normal := [], state := .off,
           attached := none, interval := none, cut := .none, frame := none }

/-- A result queue at ENGINE_RESET (06 R130). -/
def engineResetQueue (q : Queue) : Queue :=
  { q with records := [], resv := 0, nextSeq := 0, lostCount := 0, lost := false, err := false }

/-- What ENGINE_RESET leaves (09 R172): dynamic state at its reset value, configuration kept; the tick
period starts again under the TBDIV that stands (08 R162, log 20, DEDUCED). -/
def engineReset (s : State) : State :=
  { s with
    lines := mapAll (fun l => { l with holdOff := none }) s.lines
    trig := mapAll engineResetEntry s.trig
    runs := Vector.replicate 32 freeRun
    ports := mapAll engineResetPort s.ports
    queues := mapAll engineResetQueue s.queues
    stack := []
    timers := mapAll (fun t => { t with running := false, count := 0 }) s.timers
    tickDiv := s.tbdiv, clockCount := 0, timestamp := 0, tsLatch := 0
    headPtr := 0, fault := .none, laterFaults := 0 }

/-- ENGINE_RESET (09 R172). -/
def execEngineReset (s : State) : Host.Outcome State Fault Refusal :=
  .next (hostWrite engineReset s)

end Sys2Proof.Machine
end

