-- ==== Sys2Proof/Machine/ResultCommands.lean ====
section
/-! DEFINITION. The result queues' host commands: FLUSH_QUEUE, RQSEL, RQFLAGS, RQLOST, RQHEAD and
RQRELEASE (chapter 6). -/

namespace Sys2Proof.Machine

/-- FLUSH_QUEUE of queue `q` (06 R125): its records are discarded, everything else of it is kept, the
pointer returns to 0 where it is selected, and IDLE ports waiting on it decide. -/
def flush (q : QueueId) (s : State) : State :=
  let s1 := s.setQueue q { s.queue q with records := [] }
  queueChanged q (if s.rqsel = q then { s1 with headPtr := 0 } else s1)

/-- FLUSH_QUEUE (06 R125). -/
def execFlushQueue (s : State) : Host.Outcome State Fault Refusal :=
  .next (hostWrite (withArg 8 flush) s)

/-- The value `v` written to RQSEL (06 R120). -/
def selectQueue (v : Byte) (s : State) : State :=
  match argOf 8 v with
  | none => refuse .badArgument s
  | some q => { s with rqsel := q, headPtr := 0 }

/-- RQSEL_WRITE (06 R120). -/
def execRqselWrite (v : Byte) (s : State) : Host.Outcome State Fault Refusal :=
  .next (hostWrite (selectQueue v) s)

/-- The value `v` written to RQFLAGS (06 R116, R117): bit 0 clears LOST, bit 1 clears ERR. -/
def clearLatches (v : Byte) (s : State) : State :=
  let Q := s.queue s.rqsel
  s.setQueue s.rqsel { Q with lost := Q.lost && !bitOf v 0, err := Q.err && !bitOf v 1 }

/-- RQFLAGS_WRITE (06 R117). -/
def execRqflagsWrite (v : Byte) (s : State) : Host.Outcome State Fault Refusal :=
  .next (hostWrite (clearLatches v) s)

/-- A write to RQLOST (06 R117): the lost count of the selected queue is cleared. -/
def clearLostCount (s : State) : State :=
  s.setQueue s.rqsel { s.queue s.rqsel with lostCount := 0 }

/-- RQLOST_WRITE (06 R117), whatever the value written. -/
def execRqlostWrite (_v : Byte) (s : State) : Host.Outcome State Fault Refusal :=
  .next (hostWrite clearLostCount s)

/-- A read of RQHEAD (06 R121): the byte at the pointer, which moves on while it is below the head
record's length. -/
def readHead (s : State) : State :=
  match (s.queue s.rqsel).records with
  | [] => { s with dataOut := 0 }
  | r :: _ =>
    let n := (recordBytes r).length
    { s with dataOut := (recordBytes r).getD s.headPtr 0
             headPtr := if s.headPtr < n then s.headPtr + 1 else s.headPtr }

/-- RQHEAD_READ (06 R121). -/
def execRqheadRead (s : State) : Host.Outcome State Fault Refusal :=
  .next (hostRead readHead s)

/-- The value `v` written to RQRELEASE (06 R123): it removes the head record that carries it as its
sequence number, and leads IDLE ports waiting on the queue to decisions. -/
def release (v : Byte) (s : State) : State :=
  let q := s.rqsel
  match (s.queue q).records with
  | [] => refuse .emptyRelease s
  | r :: rest =>
    if r.seq = v then
      queueChanged q ({ s with headPtr := 0 }.setQueue q { s.queue q with records := rest })
    else refuse .staleRelease s

/-- RQRELEASE_WRITE (06 R123). -/
def execRqreleaseWrite (v : Byte) (s : State) : Host.Outcome State Fault Refusal :=
  .next (hostWrite (release v) s)

end Sys2Proof.Machine
end

