-- ==== Sys2Proof/Machine/Dispatch.lean ====
section
/-! DEFINITION. `exec`: each command's meaning, one arm per row of the opcode table. -/

namespace Sys2Proof.Machine

def exec (i : Instr) (s : State) : Host.Outcome State Fault Refusal :=
  match i with
  | .deviceReset => Sys2Proof.Machine.execDeviceReset s
  | .resetRelease => Sys2Proof.Machine.execResetRelease s
  | .startUpEnd => Sys2Proof.Machine.execStartUpEnd s
  | .tick => Sys2Proof.Machine.execTick s
  | .triggerLineEdge n level => Sys2Proof.Machine.execTriggerLineEdge n level s
  | .holdOffExpiry n => Sys2Proof.Machine.execHoldOffExpiry n s
  | .intervalTimerExpiry t => Sys2Proof.Machine.execIntervalTimerExpiry t s
  | .frameEnd p ready => Sys2Proof.Machine.execFrameEnd p ready s
  | .readyArrival p level => Sys2Proof.Machine.execReadyArrival p level s
  | .readyTimeoutExpiry p => Sys2Proof.Machine.execReadyTimeoutExpiry p s
  | .gapExpiry p => Sys2Proof.Machine.execGapExpiry p s
  | .cutByteEnd p => Sys2Proof.Machine.execCutByteEnd p s
  | .engineReset => Sys2Proof.Machine.execEngineReset s
  | .portReset later => Sys2Proof.Machine.execPortReset later s
  | .portResume => Sys2Proof.Machine.execPortResume s
  | .portAbort later => Sys2Proof.Machine.execPortAbort later s
  | .cancelTrigger => Sys2Proof.Machine.execCancelTrigger s
  | .flushQueue => Sys2Proof.Machine.execFlushQueue s
  | .timerStart => Sys2Proof.Machine.execTimerStart s
  | .timerStop => Sys2Proof.Machine.execTimerStop s
  | .badCommand code => Sys2Proof.Machine.execBadCommand code s
  | .swtrigWrite v => Sys2Proof.Machine.execSwtrigWrite v s
  | .hfaultWrite v => Sys2Proof.Machine.execHfaultWrite v s
  | .tselWrite v => Sys2Proof.Machine.execTselWrite v s
  | .tdataRead => Sys2Proof.Machine.execTdataRead s
  | .tdataWrite v => Sys2Proof.Machine.execTdataWrite v s
  | .rqselWrite v => Sys2Proof.Machine.execRqselWrite v s
  | .rqflagsWrite v => Sys2Proof.Machine.execRqflagsWrite v s
  | .rqlostWrite v => Sys2Proof.Machine.execRqlostWrite v s
  | .rqheadRead => Sys2Proof.Machine.execRqheadRead s
  | .rqreleaseWrite v => Sys2Proof.Machine.execRqreleaseWrite v s
  | .nctrlWrite v => Sys2Proof.Machine.execNctrlWrite v s
  | .nclaimRead part => Sys2Proof.Machine.execNclaimRead part s
  | .nendWrite v => Sys2Proof.Machine.execNendWrite v s
  | .tstampLoRead => Sys2Proof.Machine.execTstampLoRead s
  | .missLatchClear reg v => Sys2Proof.Machine.execMissLatchClear reg v s
  | .readOnlyWrite reg v => Sys2Proof.Machine.execReadOnlyWrite reg v s
  | .registerWrite reg v => Sys2Proof.Machine.execRegisterWrite reg v s
  | .transmitByteBegins p => Sys2Proof.Machine.execTransmitByteBegins p s
  | .receiveByteSampled p bits => Sys2Proof.Machine.execReceiveByteSampled p bits s

end Sys2Proof.Machine
end

