-- ==== Sys2Proof/Safety.lean ====
section
/-! DEFINITION. What the statements claim of states: the manual's laws over the whole part (R38, R84,
R105, R108, R110, R11, R138) as predicates on `State`, and the effects the rules name (a record posted, a
run ended, a port in its gap, a frame started) written from the rules, apart from the meanings that
`exec` calls. -/

namespace Sys2Proof.Machine

/-- The three addressed memories are in canonical form. -/
def MemoriesCanonical (s : State) : Prop :=
  Memory.wf s.desc = true ∧ Memory.wf s.pattern = true ∧ Memory.wf s.targets = true

/-- Law of 06 R105 and R128: in every result queue occupancy plus reservations stays within the quota and
the threshold does not exceed it, and the quotas together stay within the 64 slots of the store. -/
def AccountingBounded (s : State) : Prop :=
  (∀ q : QueueId, (s.queue q).occupancy + (s.queue q).resv ≤ (s.queue q).quota
    ∧ (s.queue q).threshold.toNat ≤ (s.queue q).quota)
  ∧ quotaSum s ≤ 64

/-- The four possible contents of the in-service stack (07 R138): empty, one entry, or a HIGH entry above
a LOW entry of another group. -/
def stackShape : List StackEntry → Bool
  | [] => true
  | [_] => true
  | [top, lower] => top.tier == .high && lower.tier == .low && top.group != lower.group
  | _ => false

/-- The in-service stack is one of the four contents of 07 R138, and stays so at the rising edge of an
NCLAIM read in progress. -/
def StackLegal (s : State) : Prop :=
  stackShape s.stack = true
  ∧ ∀ e : StackEntry, s.claim = .opened (some e) → stackShape (e :: s.stack) = true

/-- Law of 05 R84: no two enabled targets share the same port and select line. -/
def SelectsDistinct (s : State) : Prop :=
  ∀ t u : TargetId, t ≠ u → targetEnable s.targets t = true → targetEnable s.targets u = true →
    ¬(targetPort s.targets t = targetPort s.targets u
      ∧ targetSelect s.targets t = targetSelect s.targets u)

/-- Law of 01 R11: no source has more live runs than its instance limit. -/
def LiveWithinLimit (s : State) : Prop :=
  ∀ n : Source, (s.trigger n).live ≤ (s.trigger n).limit.toNat ∧ (s.trigger n).limit.toNat ≤ 4

/-- How many times slot `n` stands in a tier queue or is attached to a port. -/
def placesOf (s : State) (n : Slot) : Nat :=
  (allPorts.map fun p => (s.port p).urgent.count n + (s.port p).normal.count n
    + if (s.port p).attached = some n then 1 else 0).sum

/-- Law of 03 R37 and R38 for one slot: FREE in no place and with the values of R37; PENDING at one
position of the queue of its tier and port, without reservation and mark; ACTIVE or AWAITING attached to
the port it names. -/
def slotPlaced (s : State) (n : Slot) : Bool :=
  let r := s.run n
  match r.state with
  | .free => placesOf s n == 0 && r == freeRun
  | .pending =>
    placesOf s n == 1 && r.resv.isNone && !r.mark
      && (match r.port with
        | some p => ((s.port p).tierQueue r.tier).contains n
        | none => false)
  | .active | .awaiting =>
    placesOf s n == 1
      && (match r.port with
        | some p => (s.port p).attached == some n
        | none => false)

/-- What a port holds in each of its states (05 5.4): an attached run, a frame, an interval count and a
cut indicator only where the state has them. -/
def portCoherent (s : State) (p : Port) : Bool :=
  let P := s.port p
  match P.state with
  | .off | .idle | .halted =>
    P.attached.isNone && P.frame.isNone && P.interval.isNone && P.cut == .none
  | .shifting =>
    P.frame.isSome && P.interval.isNone && P.clockTarget.isSome
      && (match P.attached with
        | some n => P.cut == .none && (s.run n).state == .active
        | none => P.cut != .none)
  | .await =>
    P.frame.isNone && P.interval.isSome && P.cut == .none && P.clockTarget.isSome
      && (match P.attached with
        | some n => (s.run n).state == .awaiting
        | none => false)
  | .gap =>
    P.frame.isNone && P.interval.isSome && P.cut == .none && P.clockTarget.isSome
      && (match P.attached with
        | some n => (s.run n).state == .active
        | none => true)

/-- Law of 03 R38 over the whole pool: every slot is in exactly one of its places, and every port holds
what its state has. -/
def RunsPlaced (s : State) : Prop :=
  (∀ n : Slot, slotPlaced s n = true) ∧ ∀ p : Port, portCoherent s p = true

/-- Law of 06 R110: the reservations of a queue are as many as the runs that hold one in it. -/
def ReservationsCounted (s : State) : Prop :=
  ∀ q : QueueId, (s.queue q).resv = allSlots.countP fun n => (s.run n).resv == some q

/-- Law of 06 R108 and 03 R42: an attached run holds a reservation in its copy's queue exactly where that
queue is LOSSLESS. -/
def AttachedReserve (s : State) : Prop :=
  ∀ n : Slot, (s.run n).isAttached = true →
    (s.run n).resv =
      if (s.queue (copyQueue (s.run n).copy)).policy = .lossless then
        some (copyQueue (s.run n).copy)
      else none

/-- Law of 01 R11: a source's live-run count is the number of its runs in the pool. -/
def LiveCounted (s : State) : Prop :=
  ∀ n : Source, (s.trigger n).live =
    allSlots.countP fun k => (s.run k).state != .free && (s.run k).source == n

/-- Consequence of 04 R69: an IDLE port has no eligible run in its queues. -/
def IdleHasNone (s : State) : Prop :=
  ∀ p : Port, (s.port p).state = .idle →
    ∀ n : Slot, n ∈ (s.port p).urgent ++ (s.port p).normal → eligible s n = false

/-- A capture buffer holds no more bytes than its run's copy receives, nor more than 16 (03 R43); a copy
of a live run passed validation's length check. -/
def CapturesBounded (s : State) : Prop :=
  ∀ n : Slot, (s.run n).capture.length ≤ copyRxLen (s.run n).copy
    ∧ copyRxLen (s.run n).copy ≤ 16

/-- The completed steps of a live run stay below its source's step limit, where there is one (03 R51). -/
def StepsBelowLimit (s : State) : Prop :=
  ∀ n : Slot, (s.run n).state ≠ .free → (s.trigger (s.run n).source).stepLimit ≠ 0 →
    (s.run n).steps < (s.trigger (s.run n).source).stepLimit

/-- A live run stands on the port of its copy's target, which is enabled (02 R26, 05 R82). -/
def OnTargetsPort (s : State) : Prop :=
  ∀ n : Slot, (s.run n).state ≠ .free →
    (s.run n).port = some (targetPort s.targets (copyTarget (s.run n).copy))
      ∧ targetEnable s.targets (copyTarget (s.run n).copy) = true

/-- The later-fault count is 0 while the fault code is NONE (10 R182). -/
def FaultRecordCoherent (s : State) : Prop := s.fault = .none → s.laterFaults = 0

-- The vocabulary of the statements about commands

/-- A command answers a next state, and that state has the property `P`. -/
def Answers (o : Host.Outcome State Fault Refusal) (P : State → Prop) : Prop :=
  ∃ t, o = .next t ∧ P t

/-- The part runs and no NCLAIM read cycle is open: the next host access finds the bus free (09 R163). -/
def BusFree (s : State) : Prop := s.mode = .running ∧ s.claim = .closed

/-- A refusal recorded in HFAULT, and nothing else changed (09 R173). -/
def recorded (c : FaultCode) (s : State) : State :=
  if s.fault = .none then { s with fault := c }
  else { s with laterFaults := if s.laterFaults = 15 then 15 else s.laterFaults + 1 }

/-- The code with which a host write or command is refused for its value, its argument or its register
(01 R5, R16; 04 R76; 05 R100, R102; 06 R120, R123, R125; 07 R146; 08 R158, R160; 09 R165, R167, R171). -/
def refusalCode (s : State) : Instr → Option FaultCode
  | .readOnlyWrite _ _ => some .readOnly
  | .badCommand code => if code ∈ assignedCodes then none else some .badCommand
  | .swtrigWrite v => if 8 ≤ v.toNat then some .badArgument else none
  | .tselWrite v => if 9 ≤ v.toNat then some .badArgument else none
  | .rqselWrite v => if 8 ≤ v.toNat then some .badArgument else none
  | .nendWrite v =>
    if 8 ≤ v.toNat then some .badArgument
    else
      match s.stack with
      | [] => some .endEmpty
      | e :: _ => if e.group.val = v.toNat then none else some .endMismatch
  | .rqreleaseWrite v =>
    match (s.queue s.rqsel).records with
    | [] => some .emptyRelease
    | r :: _ => if r.seq = v then none else some .staleRelease
  | .portReset later => if later = 0 ∧ 4 ≤ s.commandArg.toNat then some .badArgument else none
  | .portResume => if 4 ≤ s.commandArg.toNat then some .badArgument else none
  | .portAbort later => if later = 0 ∧ 4 ≤ s.commandArg.toNat then some .badArgument else none
  | .cancelTrigger => if 20 ≤ s.commandArg.toNat then some .badArgument else none
  | .flushQueue => if 8 ≤ s.commandArg.toNat then some .badArgument else none
  | .timerStop => if 4 ≤ s.commandArg.toNat then some .badArgument else none
  | .timerStart =>
    if h : s.commandArg.toNat < 4 then
      let T := s.timer ⟨s.commandArg.toNat, h⟩
      if T.reload = 0 ∧ ¬(T.running = true ∧ T.count = 0) then some .badArgument else none
    else some .badArgument
  | _ => none

/-- The table index after a TDATA access (09 R169, R170). -/
def indexAfter (s : State) : BitVec 10 :=
  if s.tidx.toNat + 1 < tableSize s.tsel then s.tidx + 1 else 0

/-- The queue takes a record posted to it: the poster holds a reservation (06 R108), or there is room
(R111). -/
def Queue.takes (Q : Queue) (held : Bool) : Bool :=
  held || decide (Q.records.length + Q.resv < Q.quota)

/-- A queue after a posting (06 R108, R111-R113, R116). -/
def Queue.afterPost (Q : Queue) (rec : Record) (held : Bool) : Queue :=
  if Q.takes held then
    { Q with
      records := Q.records ++ [{ rec with seq := Q.nextSeq }]
      nextSeq := Q.nextSeq + 1
      resv := Q.resv - (if held then 1 else 0)
      err := Q.err || rec.status != .ok }
  else
    { Q with
      lostCount := if Q.lostCount = 255 then 255 else Q.lostCount + 1
      lost := true
      err := Q.err || rec.status != .ok }

/-- The state after a posting to `q`: the head-stream pointer returns to 0 where the selected queue gets
its first record (06 R122). -/
def posted (s : State) (q : QueueId) (rec : Record) (held : Bool) : State :=
  { s with
    queues := s.queues.set q ((s.queue q).afterPost rec held)
    headPtr := if (s.queue q).takes held && (s.queue q).records.isEmpty && s.rqsel == q then 0
               else s.headPtr }

/-- The run in slot `n` holds its reservation, if any, in its copy's queue, which counts it (06 R110). -/
def HoldsProperly (s : State) (n : Slot) : Prop :=
  ∀ q, (s.run n).resv = some q → q = copyQueue (s.run n).copy ∧ 0 < (s.queue q).resv

/-- The record of an end or a step of the run in slot `n` (03 R61), all but its sequence number, which its
queue gives (06 R112): the end time is the timestamp at the event. -/
def recordOf (s : State) (n : Slot) (st : Status) (data : List Byte) : Record :=
  let r := s.run n
  { seq := 0, status := st, source := r.source, slot := n, desc := r.desc, tag := copyTag r.copy,
    trigTime := r.trigTime, endTime := s.timestamp, data := data }

/-- The run of slot `n` ended with one record of status `st` and data `data` (03 R59, R61): the record is
posted to its copy's queue, the slot is FREE and its source has one live run fewer. -/
def endedRun (s : State) (n : Slot) (st : Status) (data : List Byte) : State :=
  let r := s.run n
  let e := s.trigger r.source
  { posted s (copyQueue r.copy) (recordOf s n st data) r.resv.isSome with
    runs := s.runs.set n freeRun
    trig := s.trig.set r.source { e with live := e.live - 1 } }

/-- A port left without a run in a gap of `g` ticks (05 R96, R97): a gap of 0 is over at once. -/
def PortRec.gapAfter (P : PortRec) (g : Nat) : PortRec :=
  { P with
    state := if g ≠ 0 then .gap else if P.enable then .idle else .off
    interval := if g ≠ 0 then some g else none
    cut := .none, frame := none, attached := none }

/-- A port that keeps its run through a gap of `g` ticks, `g` not 0 (03 R53, 05 R96). -/
def PortRec.keptGap (P : PortRec) (g : Nat) : PortRec :=
  { P with state := .gap, interval := some g, cut := .none, frame := none }

/-- A port that starts a frame for the run in slot `n` with copy `c` (05 R91). -/
def PortRec.frameStarted (P : PortRec) (m : Mem) (n : Slot) (c : DescCopy) : PortRec :=
  let t := copyTarget c
  { P with
    state := .shifting
    attached := some n
    clockTarget := some t
    clkIdle := modeIdleHigh (targetMode m t)
    interval := none
    cut := .none
    frame := some
      { target := t, select := targetSelect m t, divider := targetDivider m t,
        mode := targetMode m t, delayed := targetDelayed m t, lsbFirst := targetLsbFirst m t,
        fill := targetFill m t, leadIn := modeIdleHigh (targetMode m t) != P.clkIdle,
        txLen := copyTxLen c, rxLen := copyRxLen c, sent := [], clocks := 0 } }

/-- Slot `n` at the tail of the port's queue of tier `t` (04 R66). -/
def PortRec.tailed (P : PortRec) (t : Tier) (n : Slot) : PortRec :=
  match t with
  | .urgent => { P with urgent := P.urgent ++ [n] }
  | .normal => { P with normal := P.normal ++ [n] }

/-- Command `c` ends the step of the run in slot `n`, attached to port `p`, with success (03 R49): a frame
end with AWAIT 0, or the arrival of the ready level in AWAIT. -/
def endsStep (c : Instr) (p : Port) (n : Slot) (s : State) : Bool :=
  let P := s.port p
  let r := s.run n
  s.mode == .running && P.attached == some n && P.clockTarget == some (copyTarget r.copy)
    && (match c with
      | .frameEnd x _ =>
        x == p && P.state == .shifting && !copyAwait r.copy
          && (match P.frame with
            | some f => f.sent.length == copyTxLen r.copy && r.capture.length == copyRxLen r.copy
            | none => false)
      | .readyArrival x level => x == p && P.state == .await && level != P.awaitLow
      | _ => false)

/-- The gap of the target of the copy that the run in slot `n` holds. -/
def gapOf (s : State) (n : Slot) : Nat := targetGap s.targets (copyTarget (s.run n).copy)

/-- Steps completed after one more step (03 R49). -/
def stepsAfter (r : Run) : Byte := if r.steps = 255 then 255 else r.steps + 1

/-- The step that ends now reaches the step limit of its source (03 R49, test 3). -/
def reachesLimit (s : State) (n : Slot) : Bool :=
  (s.trigger (s.run n).source).stepLimit != 0
    && (s.trigger (s.run n).source).stepLimit == stepsAfter (s.run n)

/-- The step that ends now leads to an advance (03 R49, test 4). -/
def advances (s : State) (n : Slot) : Bool :=
  !(s.run n).mark && decide ((copyNext (s.run n).copy).toNat < 128) && !reachesLimit s n

/-- The descriptor an advance makes current. -/
def nextDesc (s : State) (n : Slot) : DescId := Fin.ofNat 128 (copyNext (s.run n).copy).toNat

/-- The copy an advance fetches (02 R22). -/
def nextCopy (s : State) (n : Slot) : DescCopy := fetchCopy s.desc (nextDesc s n)

/-- The successful step's record posted, or its reservation returned (03 R50, R52 step 1), and steps
completed raised. -/
def settled (s : State) (n : Slot) : State :=
  let r := s.run n
  let q := copyQueue r.copy
  let Q := s.queue q
  let s1 :=
    if copyPost r.copy then posted s q (recordOf s n .ok r.capture) r.resv.isSome
    else { s with queues := s.queues.set q { Q with resv := Q.resv - (if r.resv.isSome then 1 else 0) } }
  { s1 with runs := s.runs.set n { r with resv := none, steps := stepsAfter r } }

/-- The queue in which the successful step returns a reservation, which leads ports to decisions (06 R109). -/
def returnedIn (s : State) (n : Slot) : Option QueueId :=
  if copyPost (s.run n).copy then none else (s.run n).resv

/-- The run in slot `n` meets the conditions of a KEEP continuation (03 R53). -/
def keeps (s : State) (p : Port) (n : Slot) : Bool :=
  let c := nextCopy s n
  let Q := (settled s n).queue (copyQueue c)
  copyKeep (s.run n).copy && targetPort s.targets (copyTarget c) == p && (s.port p).enable
    && (Q.policy == .lossy || decide (Q.records.length + Q.resv < Q.quota))

/-- The trigger source of the event that a command is, where it is one (01 R2, R5, 08 R159), and what the
command does besides the event: the line's detector and hold-off, the timer's stop or reload. -/
def eventOf (c : Instr) (s : State) : Option (Source × State) :=
  match c with
  | .swtrigWrite v =>
    if h : v.toNat < 8 then
      if s.mode = .running ∧ s.claim = .closed then some (⟨12 + v.toNat, by omega⟩, s) else none
    else none
  | .triggerLineEdge n level =>
    let src : Source := ⟨n.val, by omega⟩
    let e := s.trigger src
    let sel := match e.edge with
      | .rising => level
      | .falling => !level
      | .both => true
    if s.mode = .running ∧ (s.line n).ref ≠ level ∧ sel = true ∧ (s.line n).holdOff = none then
      some (src, s.setLine n
        { pin := level, ref := level,
          holdOff := if e.holdOffTicks = 0 then none else some e.holdOffTicks.toNat })
    else none
  | .intervalTimerExpiry t =>
    let T := s.timer t
    if s.mode = .running ∧ T.running = true ∧ T.count = 0 then
      some (⟨8 + t.val, by omega⟩, s.setTimer t
        (if T.mode = .periodic ∧ T.reload ≠ 0 then { T with count := T.reload }
         else { T with running := false, count := 0 }))
    else none
  | _ => none

/-- A miss recorded at source `n` (01 R13). -/
def missed (s : State) (n : Source) (cause : MissCause) : State :=
  let e := s.trigger n
  s.setTrigger n
    { e with
      missCount := if e.missCount = 255 then 255 else e.missCount + 1
      lastMiss := cause
      missLatch := true }

/-- The configuration that only writes of the host change: descriptor store, pattern memory, target table
and the configuration fields of the other tables, and NCTRL, TBDIV and COMMAND_ARG (02 R20, R32, 04 R78,
06 R126, 07 R133). -/
def SameTables (s t : State) : Prop :=
  t.desc = s.desc ∧ t.pattern = s.pattern ∧ t.targets = s.targets ∧ t.groups = s.groups
  ∧ (∀ n, t.trigger n =
      { s.trigger n with
        missCount := (t.trigger n).missCount
        lastMiss := (t.trigger n).lastMiss
        live := (t.trigger n).live
        missLatch := (t.trigger n).missLatch })
  ∧ (∀ q, (t.queue q).quota = (s.queue q).quota ∧ (t.queue q).policy = (s.queue q).policy
      ∧ (t.queue q).threshold = (s.queue q).threshold ∧ (t.queue q).group = (s.queue q).group
      ∧ (t.queue q).levelEn = (s.queue q).levelEn ∧ (t.queue q).lostEn = (s.queue q).lostEn
      ∧ (t.queue q).errEn = (s.queue q).errEn)
  ∧ (∀ p, (t.port p).haltOnError = (s.port p).haltOnError
      ∧ (t.port p).haltNotify = (s.port p).haltNotify ∧ (t.port p).group = (s.port p).group
      ∧ (t.port p).starveLimit = (s.port p).starveLimit)
  ∧ (∀ k, (t.timer k).reload = (s.timer k).reload ∧ (t.timer k).mode = (s.timer k).mode)

/-- A kept run's next step begins (03 R53): the completed step settled, the next copy current, a
reservation taken in a LOSSLESS queue, and the port in the completed target's gap, or already shifting
the kept frame where that gap is 0. -/
def continued (s : State) (p : Port) (n : Slot) : State :=
  let st := settled s n
  let c := nextCopy s n
  let q := copyQueue c
  let Q := st.queue q
  let take := Q.policy == .lossless
  { st with
    queues := st.queues.set q { Q with resv := Q.resv + (if take then 1 else 0) }
    runs := s.runs.set n
      { s.run n with
        state := .active
        desc := nextDesc s n
        copy := c
        steps := stepsAfter (s.run n)
        retries := BitVec.ofNat 2 (copyRetries c)
        resv := if take then some q else none
        capture := [] }
    ports := s.ports.set p
      (if gapOf s n = 0 then (s.port p).frameStarted s.targets n c
       else (s.port p).keptGap (gapOf s n)) }

/-- The run in slot `n` re-queued at its advance (03 R54): PENDING at the tail of its tier queue on the new
copy's port, the port it left in the completed target's gap. -/
def requeued (s : State) (p : Port) (n : Slot) : State :=
  let st := settled s n
  let c := nextCopy s n
  let p' := targetPort s.targets (copyTarget c)
  let s1 := st.setPort p' ((st.port p').tailed (s.run n).tier n)
  let s2 := s1.setPort p ((s1.port p).gapAfter (gapOf s n))
  s2.setRun n
    { s.run n with
      state := .pending
      desc := nextDesc s n
      copy := c
      steps := stepsAfter (s.run n)
      retries := BitVec.ofNat 2 (copyRetries c)
      resv := none
      port := some p'
      capture := [] }

/-- The run in slot `n` ended at an advance to an invalid copy (02 R27, 03 R52): the completed step
settled, then a BAD_DESCRIPTOR record without reservation in the new copy's queue. -/
def endedInvalid (s : State) (p : Port) (n : Slot) : State :=
  let c := nextCopy s n
  let src := (s.run n).source
  let s1 := posted (settled s n) (copyQueue c)
    { recordOf s n .badDescriptor [] with desc := nextDesc s n, tag := copyTag c } false
  ((s1.setRun n freeRun).setTrigger src
    { s.trigger src with live := (s.trigger src).live - 1 }).setPort p
      ((s.port p).gapAfter (gapOf s n))

/-- The run in slot `n` ended successfully (03 R50, R59). -/
def endedWell (s : State) (p : Port) (n : Slot) : State :=
  let src := (s.run n).source
  (((settled s n).setRun n freeRun).setTrigger src
    { s.trigger src with live := (s.trigger src).live - 1 }).setPort p
      ((s.port p).gapAfter (gapOf s n))

/-- The run in slot `n` retried (03 R46). -/
def retried (s : State) (p : Port) (n : Slot) : State :=
  let r := s.run n
  let q := copyQueue r.copy
  let s1 := s.setQueue q
    { s.queue q with resv := (s.queue q).resv - (if r.resv.isSome then 1 else 0) }
  (s1.setRun n
    { r with
      state := .pending
      retries := r.retries - 1
      resv := none
      port := some p
      capture := [] }).setPort p (((s.port p).tailed r.tier n).gapAfter (gapOf s n))

/-- The run in slot `n`, of tier `t`, granted on port `p` (04 R70, R73): out of its queue, a reservation
taken where its copy's queue is LOSSLESS, the starvation counter updated and its frame started;
`contested` says that a NORMAL candidate stood. -/
def granted (s : State) (p : Port) (t : Tier) (n : Slot) (contested : Bool) : State :=
  let P := s.port p
  let r := s.run n
  let q := copyQueue r.copy
  let Q := s.queue q
  let take := Q.policy == .lossless
  let P' :=
    match t with
    | .urgent =>
      { P with
        urgent := P.urgent.erase n
        starveCount := if contested = true ∧ P.starveCount ≠ 15 then P.starveCount + 1
                       else P.starveCount }
    | .normal => { P with normal := P.normal.erase n, starveCount := 0 }
  { s with
    queues := s.queues.set q { Q with resv := Q.resv + (if take then 1 else 0) }
    runs := s.runs.set n
      { r with state := .active, resv := if take then some q else r.resv, capture := [] }
    ports := s.ports.set p (P'.frameStarted s.targets n r.copy) }

/-- The grant decision of port `p` (04 R70): none unless the port is IDLE and a queued run is eligible; else
the first eligible URGENT run, unless the starvation limit is nonzero and reached while a NORMAL run is
eligible, else the first eligible NORMAL run. -/
def decision (s : State) (p : Port) : State :=
  let P := s.port p
  if P.state = .idle then
    match P.urgent.find? (eligible s), P.normal.find? (eligible s) with
    | none, none => s
    | some a, none => granted s p .urgent a false
    | none, some b => granted s p .normal b true
    | some a, some b =>
      if P.starveLimit ≠ 0 ∧ P.starveLimit ≤ P.starveCount then granted s p .normal b true
      else granted s p .urgent a true
  else s

/-- What the IDLE ports that `led` names may make of state `m` (04 R69-R73): each makes one decision, one
after the other, in an order that is open where there are several (R71, log 3). -/
def Decided (led : Port → Bool) (m t : State) : Prop :=
  ∃ (l : List Port) (k : Nat),
    l.Perm (allPorts.filter fun p => (m.port p).state == .idle && led p)
    ∧ (l.length ≤ 1 → k = m.raceCount)
    ∧ t = l.foldl decision { m with raceCount := k }

/-- The run in slot `n` in its ready wait (03 R44, 05 R93). -/
def awaiting (s : State) (p : Port) (n : Slot) : State :=
  (s.setRun n { s.run n with state := .awaiting }).setPort p
    { s.port p with
      state := .await
      interval := some (copyTimeout (s.run n).copy).toNat
      frame := none
      awaitLow := targetReadyLow s.targets (copyTarget (s.run n).copy) }

/-- The ready wait of the run in slot `n` on port `p` has counted its last tick (05 R93, R95). -/
def timesOut (p : Port) (n : Slot) (s : State) : Bool :=
  let P := s.port p
  s.mode == .running && P.attached == some n && P.state == .await && P.interval == some 0
    && P.clockTarget == some (copyTarget (s.run n).copy)

/-- The runs of the slots in `l` have ended ABORTED in that order, their records in queue `q` (06 R111,
R112, R116): `s` before, `t` after; `converted` says that the first of them held a reservation in `q`. -/
def AbortedInOrder (s t : State) (q : QueueId) (l : List Slot) (data : Slot → List Byte)
    (converted : Bool) : Prop :=
  let Q := s.queue q
  let mine := l.filter fun n => copyQueue (s.run n).copy == q
  let room := Q.quota - (Q.records.length + Q.resv) + (if converted then 1 else 0)
  let kept := mine.take room
  t.queue q =
    { Q with
      records := Q.records ++ kept.zipIdx.map fun x =>
        { recordOf s x.1 .aborted (data x.1) with seq := Q.nextSeq + BitVec.ofNat 8 x.2 }
      nextSeq := Q.nextSeq + BitVec.ofNat 8 kept.length
      lostCount := BitVec.ofNat 8 (min 255 (Q.lostCount.toNat + (mine.length - room)))
      lost := Q.lost || decide (room < mine.length)
      err := Q.err || !mine.isEmpty
      resv := Q.resv - (if converted then 1 else 0) }

/-- The head-stream pointer after postings: 0 where the selected queue was empty and has got a record
(06 R122). -/
def HeadAfterPostings (s t : State) : Prop :=
  t.headPtr =
    if (s.queue s.rqsel).records = [] ∧ (t.queue s.rqsel).records ≠ [] then 0 else s.headPtr

-- Frames on the wire, in half bit periods from select assertion

/-- The launch of bit `b` (05 R87): at its bit period's start in modes A and C, half a bit period later in
modes B and D. -/
def launchHalf (m : SerialMode) (b : Nat) : Nat :=
  match m with
  | .a | .c => 2 * b
  | .b | .d => 2 * b + 1

/-- The sample of bit `b` (05 R87), half a bit period later with delayed sample (R88). -/
def sampleHalf (m : SerialMode) (delayed : Bool) (b : Nat) : Nat :=
  launchHalf m b + (if delayed then 2 else 1)

/-- The release of select at the frame's end (05 R86, R88). -/
def releaseHalf (f : Frame) : Nat :=
  match f.mode with
  | .a | .c => 16 * (f.txLen + f.rxLen)
  | .b | .d => 16 * (f.txLen + f.rxLen) + (if f.delayed then 1 else 0)

/-- Part clocks from frame start to `h` half bit periods after select assertion (05 R86, R91). -/
def clocksAt (f : Frame) (h : Nat) : Nat := ((if f.leadIn then 1 else 0) + h) * 2 ^ f.divider.toNat

/-- The half bit periods since select assertion that have passed. -/
def halvesOf (f : Frame) : Nat := f.clocks / 2 ^ f.divider.toNat - (if f.leadIn then 1 else 0)

/-- A byte of the frame is in progress (05 R101): after its first launch, within its last bit period. A
transmit byte is launched when it is read (02 R33). -/
def insideByte (f : Frame) : Bool :=
  let k := halvesOf f / 16
  decide (clocksAt f 0 ≤ f.clocks)
    && if k < f.txLen then decide (k < f.sent.length)
       else decide (k < f.txLen + f.rxLen) && decide (launchHalf f.mode (8 * k) ≤ halvesOf f)

/-- The next event of frame `f` on a port: a byte's start (02 R33), a byte's last sample (05 R89), the frame's
end (R92), or the end of a cut byte (R101). -/
def nextHalf (s : State) (P : PortRec) (f : Frame) : Nat :=
  match P.attached with
  | none => 16 * (halvesOf f / 16 + 1)
  | some n =>
    let got := (s.run n).capture.length
    if f.sent.length < f.txLen then launchHalf f.mode (8 * f.sent.length)
    else if got < f.rxLen then sampleHalf f.mode f.delayed (8 * (f.txLen + got) + 7)
    else releaseHalf f

/-- The port after `k` part clocks without an event (05 R86; log 4): a frame moves on, and stands before its
next event. -/
def PortRec.passing (P : PortRec) (s : State) (k : Nat) : PortRec :=
  match P.state, P.frame with
  | .shifting, some f =>
    let next := clocksAt f (nextHalf s P f)
    { P with frame := some { f with
        clocks := if f.clocks + k < next then f.clocks + k else max f.clocks (next - 1) } }
  | _, _ => P

/-- Law of the frames: a frame is that of its run's copy, stands within its length, and its bytes sent
within the transmit length; the port's clock rests at its mode's idle level (05 R86, R91); a frame that
was cut has its byte in progress (R101). A run in a frame or its ready wait has its copy's target as the
port's clock target. -/
def FramesCoherent (s : State) : Prop :=
  ∀ p : Port,
    (∀ f, (s.port p).frame = some f →
      f.sent.length ≤ f.txLen ∧ f.clocks ≤ clocksAt f (releaseHalf f)
      ∧ (s.port p).clkIdle = modeIdleHigh f.mode
      ∧ ((s.port p).attached = none → insideByte f = true)
      ∧ ∀ n, (s.port p).attached = some n →
          f.target = copyTarget (s.run n).copy ∧ f.txLen = copyTxLen (s.run n).copy
          ∧ f.rxLen = copyRxLen (s.run n).copy)
    ∧ ∀ n, (s.port p).attached = some n →
        ((s.port p).state = .shifting ∨ (s.port p).state = .await) →
        (s.port p).clockTarget = some (copyTarget (s.run n).copy)

-- Ticks and part clocks

/-- The part-clock count stays within the tick period in force (08 R153). -/
def ClockWithinTick (s : State) : Prop := s.clockCount ≤ s.tickDiv.toNat

/-- The expiries that the last tick has made due (08 R156; log 5): of hold-offs, running timers, ready waits
and gaps whose count stands at 0. -/
def dueCommands (s : State) : List Instr :=
  ((List.finRange 8).filter fun n => (s.line n).holdOff == some 0).map .holdOffExpiry
  ++ ((List.finRange 4).filter fun k => (s.timer k).running && (s.timer k).count == 0).map
      .intervalTimerExpiry
  ++ (allPorts.filter fun p => (s.port p).state == .await && (s.port p).interval == some 0
      && (s.port p).attached.isSome).map .readyTimeoutExpiry
  ++ (allPorts.filter fun p => (s.port p).state == .gap && (s.port p).interval == some 0).map
      .gapExpiry

/-- The state after a command that answers one. -/
def afterCommand (s : State) (c : Instr) : State :=
  match exec c s with
  | .next t => t
  | .fault _ => s
  | .refused _ => s

/-- State `u` is `s` after its due expiries, one after the other, in an order that is open where there are
several (01 R1, log 3). -/
def Settled (s u : State) : Prop :=
  ∃ (l : List Instr) (k : Nat),
    l.Perm (dueCommands s) ∧ (l.length ≤ 1 → k = s.raceCount)
    ∧ u = l.foldl afterCommand { s with raceCount := k }

/-- State `t` is `u` after a tick with `k` part clocks before it (08 R153, R154, R159): the timestamp rises
by 1 and wraps, the part-clock count starts again under TBDIV, every running hold-off, ready timeout,
gap and timer takes the tick, the frames move on, and IRQ# shows the claimable set (11 R186). -/
def Ticked (k : Nat) (u t : State) : Prop :=
  t = { u with
        tickDiv := u.tbdiv, clockCount := 0, timestamp := u.timestamp + 1, lines := t.lines,
        ports := t.ports, timers := t.timers, irqSample := t.irqSample }
  ∧ (t.irqSample = true ↔ ∃ g, claimable u g = true)
  ∧ (∀ n, t.line n = { u.line n with holdOff := (u.line n).holdOff.map fun m => m - 1 })
  ∧ (∀ p, t.port p =
      { (u.port p).passing u k with
        interval := if (u.port p).state = .await ∨ (u.port p).state = .gap then
          (u.port p).interval.map fun m => m - 1 else (u.port p).interval })
  ∧ (∀ j, t.timer j =
      { u.timer j with
        count := if (u.timer j).running = true ∧ (u.timer j).count ≠ 0 then
          (u.timer j).count - 1 else (u.timer j).count })

/-- State `t` is `s` after one part clock (05 R86, 08 R153, 11 R186): the expiries of the last tick come
first, then the frames move on, IRQ# takes the state of the claimable set and the part-clock count rises,
or, at TBDIV + 1, the tick occurs. -/
def PartClock (s t : State) : Prop :=
  ∃ u, Settled s u ∧
    if u.clockCount < u.tickDiv.toNat then
      t = { u with clockCount := u.clockCount + 1, ports := t.ports, irqSample := t.irqSample }
      ∧ (t.irqSample = true ↔ ∃ g, claimable u g = true)
      ∧ ∀ p, t.port p = (u.port p).passing u 1
    else Ticked 1 u t

-- Bytes that the host reads

/-- Byte `i` of a record in stream order (10 R181). -/
def streamByte (r : Record) : Nat → Byte
  | 0 => r.seq
  | 1 =>
    match r.status with
    | .ok => 0x00
    | .timeout => 0x01
    | .badDescriptor => 0x02
    | .aborted => 0x03
    | .stepLimit => 0x04
  | 2 => BitVec.ofNat 8 r.source.val
  | 3 => BitVec.ofNat 8 r.slot.val
  | 4 => BitVec.ofNat 8 r.desc.val
  | 5 => r.tag
  | 6 => r.trigTime.setWidth 8
  | 7 => (r.trigTime >>> 8).setWidth 8
  | 8 => r.endTime.setWidth 8
  | 9 => (r.endTime >>> 8).setWidth 8
  | 10 => BitVec.ofNat 8 r.data.length
  | i + 11 => r.data.getD i 0

-- Notification sources

/-- The number of active sources that feed group `g`: LEVEL, LOST and ERR of the queues (06 R119), MISS of
the trigger sources (01 R15), HALT of the ports (04 R77), each by its own group field (07 R131). -/
def feeding (s : State) (g : GroupId) : Nat :=
  (allQueues.countP fun q => (s.queue q).group == g && (s.queue q).levelEn
    && (s.queue q).threshold != 0
    && decide ((s.queue q).threshold.toNat ≤ (s.queue q).records.length))
  + (allQueues.countP fun q => (s.queue q).group == g && (s.queue q).lostEn && (s.queue q).lost)
  + (allQueues.countP fun q => (s.queue q).group == g && (s.queue q).errEn && (s.queue q).err)
  + (allSources.countP fun n => (s.trigger n).group == g && (s.trigger n).missNotify
      && (s.trigger n).missLatch)
  + allPorts.countP fun p => (s.port p).group == g && (s.port p).haltNotify
      && (s.port p).state == .halted

end Sys2Proof.Machine
end

