-- ==== Sys2Proof/Certificates/Slice0/Obligations.lean ====
section
/-! DEFINITION. The statements for the provers, in the order of the manual's chapters after the machine's
own: resets, host interface and tables, triggers, time base, ports and runs, result queues, notification,
and the laws that every step keeps. `Answers (exec c s) P` says that the command answers a next state, and
that state has `P`. -/

open Sys2Proof Sys2Proof.Machine

-- The machine

/-- A step runs the command at the front of the queue on the state with the queue's rest. The queue is the
model's form of what reaches the part (log 19). -/
def Obligations.StepRunsFrontCommand : Prop :=
  ∀ (c : Instr) (rest : List Instr) (s : State), s.pending = c :: rest →
    step s = exec c { s with pending := rest }

-- Resets (09 9.4, 9.6; 01 R18-R19, 03 R64, 04 R80, 05 R103, 06 R130, 07 R152, 08 R162)

/-- DEVICE_RESET holds the part, RESET_RELEASE starts the memory clear, START_UP_END leaves the reset state
with the lines' levels as references (R2, R175, R176). That what the blocks hold stands unseen until the
clear, and that a release while RESET# is high does nothing, is the model's choice (logs 6, 18). An
NCLAIM read whose cycle is open when RESET# falls ends without a push, which is the model's choice too
(log 9). -/
def Obligations.ResetSequenceReachesReset : Prop :=
  ∀ (s : State),
    exec .deviceReset s = .next { s with mode := .inReset, claim := .closed }
    ∧ (s.mode = .inReset → exec .resetRelease s = .next { s with mode := .startUp })
    ∧ (s.mode ≠ .inReset → exec .resetRelease s = .next s)
    ∧ (s.mode = .startUp → Answers (exec .startUpEnd s) fun t =>
        t = { State.reset with
              lines := t.lines, dataOut := s.dataOut, raceCount := s.raceCount,
              pending := s.pending }
        ∧ ∀ n, t.line n = { pin := (s.line n).pin, ref := (s.line n).pin, holdOff := none })

/-- While RESET# is low or the clear runs, every other command changes nothing but the pin of a line and the
zero a read drives, and every register but STATUS reads 00h (R175, R176). That a line's pin still shows
its level is the model's (log 18), as is the byte a read drives (log 16). The rising edge of an NCLAIM
read that began before RESET# fell leaves the data lines as they stand, which is the model's choice (log
9). -/
def Obligations.ResetIgnoresEveryOtherCommand : Prop :=
  ∀ (c : Instr) (s : State), c.wf = true → s.mode ≠ .running →
    c ∉ [Instr.deviceReset, .resetRelease, .startUpEnd] →
    (Answers (exec c s) fun t =>
      t = { s with lines := t.lines, dataOut := t.dataOut }
      ∧ t.dataOut = (if c ∈ [Instr.tdataRead, .rqheadRead, .tstampLoRead, .nclaimRead .whole,
          .nclaimRead .start] then 0 else s.dataOut)
      ∧ (∀ n, (t.line n).ref = (s.line n).ref ∧ (t.line n).holdOff = (s.line n).holdOff)
      ∧ (∀ n, (∀ level, c ≠ .triggerLineEdge n level) → t.line n = s.line n)
      ∧ (∀ n level, c = .triggerLineEdge n level → (t.line n).pin = level))
    ∧ ∀ a : Fin 32, readRegister a s = if a.val = 0x02 then 0x01 else 0

/-- What the end of start-up leaves: the interface's values, every register, every byte of every table, IRQ#
deasserted (R177; R176 for the tables) and the pins of the ports (R104). -/
def Obligations.StartUpLeavesResetValues : Prop :=
  ∀ (s : State), s.mode = .startUp → Answers (exec .startUpEnd s) fun t =>
    t.tsel = 0 ∧ t.tidx = 0 ∧ t.rqsel = 0 ∧ t.headPtr = 0 ∧ t.commandArg = 0
    ∧ t.fault = .none ∧ t.laterFaults = 0 ∧ t.tsLatch = 0
    ∧ (∀ p, (t.port p).state = .off)
    ∧ (∀ a : Fin 32, readRegister a t =
        if a.val = 0x00 then 0x43 else if a.val = 0x01 then 0x01
        else if a.val = 0x13 then 0x80 else if a.val = 0x1C then 32 else 0)
    ∧ (∀ (tab : Fin 9) (i : Fin 1024), i.val < tableSize tab → tableRead tab i.val t = 0)
    ∧ irqPin t = true
    ∧ ∀ (p : Port) (line : Bool),
        selectPin t p line = true ∧ clockPin t p = false ∧ dataPin t p = false

/-- ENGINE_RESET clears the dynamic state of every block and keeps the configuration (R172 with the
chapters' own rules); no group is pending after it, the claimable set is empty, the selects are high and
Pn_DO low (R103). That the divider written last is in force at once is the model's reading of R162 (log
20), and that IRQ# shows the empty set from the next part clock on is its form of R186 (log 22). -/
def Obligations.EngineResetClearsAndKeeps : Prop :=
  ∀ (s : State), BusFree s → Answers (exec .engineReset s) fun t =>
    t = { s with
          lines := t.lines, trig := t.trig, runs := t.runs, ports := t.ports, queues := t.queues,
          timers := t.timers, stack := [], tickDiv := s.tbdiv, clockCount := 0, timestamp := 0,
          tsLatch := 0, headPtr := 0, fault := .none, laterFaults := 0 }
    ∧ (∀ n, t.line n = { s.line n with holdOff := none })
    ∧ (∀ n, t.trigger n =
        { s.trigger n with missCount := 0, lastMiss := .none, live := 0, missLatch := false })
    ∧ (∀ n, t.run n = freeRun) ∧ freeCount t = 32
    ∧ (∀ p, t.port p =
        { s.port p with
          enable := false, starveCount := 0, urgent := [], normal := [], state := .off,
          attached := none, interval := none, cut := .none, frame := none })
    ∧ (∀ q, t.queue q =
        { s.queue q with
          records := [], resv := 0, nextSeq := 0, lostCount := 0, lost := false, err := false })
    ∧ (∀ k, t.timer k = { s.timer k with running := false, count := 0 })
    ∧ (∀ g, pendingGroup t g = false) ∧ irqState t = false
    ∧ ∀ (p : Port) (line : Bool), selectPin t p line = true ∧ dataPin t p = false

-- The host bus interface and the tables (chapter 9; 01 R7-R9, 04 R78, 05 R83-R84, 06 R126-R128)

/-- A refused access records its code in HFAULT, or counts as a later fault, and changes nothing else
(R173), for every refusal of a value, an argument or a register. A BAD_COMMAND term with a code that
another command has is no BAD_COMMAND, and the model refuses it by name (log 17). PORT_RESET and
PORT_ABORT stand here without part clocks before them (log 4). -/
def Obligations.RefusedAccessOnlyRecordsFault : Prop :=
  (∀ (c : Instr) (code : FaultCode) (s : State), BusFree s → refusalCode s c = some code →
    exec c s = .next (recorded code s))
  ∧ ∀ (v : Byte) (s : State), v ∈ assignedCodes →
    exec (.badCommand v) s = .refused (.assignedCode v)

/-- The writes that store or clear one register of the interface, a latch pair, latches or a count, and
nothing else: HFAULT (R174), COMMAND_ARG (R171), TBDIV (R153), NCTRL (R137), RQFLAGS and RQLOST (R116,
R117), and MISS0-MISS2, where exactly the latches whose bits are written 1 are cleared (R14). -/
def Obligations.RegisterWritesChangeOneItem : Prop :=
  ∀ (v : Byte) (s : State), BusFree s →
    exec (.hfaultWrite v) s = .next { s with fault := .none, laterFaults := 0 }
    ∧ exec (.registerWrite .commandArg v) s = .next { s with commandArg := v }
    ∧ exec (.registerWrite .tbdiv v) s = .next { s with tbdiv := v }
    ∧ exec (.nctrlWrite v) s = .next { s with nen := v.getLsbD 0, nlow := v.getLsbD 1 }
    ∧ exec (.rqflagsWrite v) s = .next (s.setQueue s.rqsel
        { s.queue s.rqsel with
          lost := (s.queue s.rqsel).lost && !v.getLsbD 0
          err := (s.queue s.rqsel).err && !v.getLsbD 1 })
    ∧ exec (.rqlostWrite v) s =
        .next (s.setQueue s.rqsel { s.queue s.rqsel with lostCount := 0 })
    ∧ ∀ reg : Fin 3, Answers (exec (.missLatchClear reg v) s) fun t =>
        t = { s with trig := t.trig }
        ∧ ∀ n, t.trigger n =
            { s.trigger n with
              missLatch := (s.trigger n).missLatch
                && !(n.val / 8 == reg.val && v.getLsbD (n.val % 8)) }

/-- Writes to TSEL, TIDX_LO and TIDX_HI (R167, R168): 0 to 8 selects the table and sets the index to 0,
every other value is refused; the index writes set their bits of the ten-bit index from any value and
leave the others; reads return the table and the index as they stand; no table changes. -/
def Obligations.SelectionWritesSetTableAndIndex : Prop :=
  ∀ (v : Byte) (s : State), BusFree s →
    (∀ tab : Fin 9, v.toNat = tab.val → Answers (exec (.tselWrite v) s) fun t =>
      t = { s with tsel := tab, tidx := 0 }
      ∧ readRegister 0x08 t = v
      ∧ ∀ (x : Fin 9) (i : Fin 1024), tableRead x i.val t = tableRead x i.val s)
    ∧ (9 ≤ v.toNat → exec (.tselWrite v) s = .next (recorded .badArgument s))
    ∧ (Answers (exec (.registerWrite .tidxLo v) s) fun t =>
      t = { s with tidx := t.tidx } ∧ t.tidx.setWidth 8 = v ∧ t.tidx >>> 8 = s.tidx >>> 8)
    ∧ (Answers (exec (.registerWrite .tidxHi v) s) fun t =>
      t = { s with tidx := t.tidx } ∧ t.tidx.setWidth 8 = s.tidx.setWidth 8
      ∧ (t.tidx >>> 8).setWidth 2 = v.setWidth 2)
    ∧ readRegister 0x09 s = s.tidx.setWidth 8
    ∧ (readRegister 0x0A s).toNat = s.tidx.toNat / 256

/-- A read of TDATA (R169): the byte of the selected table at the index, or 00h beyond its end, and the
index moves to the next byte, to 0 at or beyond the end; no table changes. -/
def Obligations.TdataReadReturnsByteAndAdvances : Prop :=
  ∀ (s : State), BusFree s → Answers (exec .tdataRead s) fun t =>
    t = { s with
          dataOut := if s.tidx.toNat < tableSize s.tsel then tableRead s.tsel s.tidx.toNat s else 0
          tidx := t.tidx }
    ∧ t.tidx.toNat =
        (if s.tidx.toNat + 1 < tableSize s.tsel then s.tidx.toNat + 1 else 0)
    ∧ ∀ (x : Fin 9) (i : Fin 1024), tableRead x i.val t = tableRead x i.val s

/-- Every TDATA write moves the index, accepted or refused, and touches only the tables' owners and the
fault record; beyond the table it is refused with BAD_ARGUMENT, in the run pool view with READ_ONLY, and
neither changes a table (R170). -/
def Obligations.TdataWriteAlwaysAdvances : Prop :=
  ∀ (v : Byte) (s : State), BusFree s → Answers (exec (.tdataWrite v) s) fun t =>
    t = { s with
          desc := t.desc, pattern := t.pattern, targets := t.targets, trig := t.trig,
          runs := t.runs, ports := t.ports, queues := t.queues, groups := t.groups,
          timers := t.timers, fault := t.fault, laterFaults := t.laterFaults,
          tidx := indexAfter s, raceCount := t.raceCount }
    ∧ (tableSize s.tsel ≤ s.tidx.toNat → t = { recorded .badArgument s with tidx := 0 })
    ∧ (s.tsel = 6 → s.tidx.toNat < 384 →
        t = { recorded .readOnly s with tidx := indexAfter s })

/-- The descriptor store and pattern memory take every byte at any time: the byte at the index becomes the
value written and every other byte, with the rest of the part, stays (R20, R32). -/
def Obligations.StoreAndPatternTakeEveryByte : Prop :=
  ∀ (v : Byte) (s : State), BusFree s → s.tidx.toNat < tableSize s.tsel →
    (s.tsel = 0 → Memory.wf s.desc = true → Answers (exec (.tdataWrite v) s) fun t =>
      t = { s with desc := t.desc, tidx := indexAfter s } ∧ Memory.wf t.desc = true
      ∧ ∀ j : Nat, memRead t.desc j = if j = s.tidx.toNat then v else memRead s.desc j)
    ∧ (s.tsel = 1 → Memory.wf s.pattern = true → Answers (exec (.tdataWrite v) s) fun t =>
      t = { s with pattern := t.pattern, tidx := indexAfter s } ∧ Memory.wf t.pattern = true
      ∧ ∀ j : Nat, memRead t.pattern j = if j = s.tidx.toNat then v else memRead s.pattern j)

/-- A write of byte `k` of target entry `tg` (R83, R84): ENTRY_BUSY unless the entry's port, and the port it
would move to, are OFF with empty queues; then BAD_VALUE for an unassigned divider code and for a port
and select line that another enabled entry names; else the byte is stored and every other byte kept. -/
def Obligations.TargetWritesCheckBusyThenValue : Prop :=
  ∀ (tg : TargetId) (k : Fin 8) (v : Byte) (s : State), BusFree s → s.tsel = 2 →
    s.tidx.toNat = 8 * tg.val + k.val → Memory.wf s.targets = true →
    (((s.port (targetPort s.targets tg)).offAndEmpty = false
        ∨ (k = 0 ∧ Fin.ofNat 4 (v.toNat / 2) ≠ targetPort s.targets tg
            ∧ (s.port (Fin.ofNat 4 (v.toNat / 2))).offAndEmpty = false)) →
      exec (.tdataWrite v) s = .next { recorded .entryBusy s with tidx := indexAfter s })
    ∧ ((s.port (targetPort s.targets tg)).offAndEmpty = true →
        (k = 0 → Fin.ofNat 4 (v.toNat / 2) ≠ targetPort s.targets tg →
          (s.port (Fin.ofNat 4 (v.toNat / 2))).offAndEmpty = true) →
        ((k = 1 ∧ 6 ≤ v.toNat % 8)
          ∨ (k = 0 ∧ v.getLsbD 0 = true ∧ ∃ u : TargetId, u ≠ tg ∧ targetEnable s.targets u = true
              ∧ targetPort s.targets u = Fin.ofNat 4 (v.toNat / 2)
              ∧ targetSelect s.targets u = v.getLsbD 3)) →
        exec (.tdataWrite v) s = .next { recorded .badValue s with tidx := indexAfter s })
    ∧ ((s.port (targetPort s.targets tg)).offAndEmpty = true →
        (k = 0 → Fin.ofNat 4 (v.toNat / 2) ≠ targetPort s.targets tg →
          (s.port (Fin.ofNat 4 (v.toNat / 2))).offAndEmpty = true) →
        ¬(k = 1 ∧ 6 ≤ v.toNat % 8) →
        (k = 0 → v.getLsbD 0 = true → ∀ u : TargetId, u ≠ tg → targetEnable s.targets u = true →
          ¬(targetPort s.targets u = Fin.ofNat 4 (v.toNat / 2)
            ∧ targetSelect s.targets u = v.getLsbD 3)) →
        Answers (exec (.tdataWrite v) s) fun t =>
          t = { s with targets := t.targets, tidx := indexAfter s } ∧ Memory.wf t.targets = true
          ∧ ∀ j : Nat, memRead t.targets j =
              if j = 8 * tg.val + k.val then v else memRead s.targets j)

/-- A write of byte `k` of trigger map entry `n` (R7-R9): the any-time byte is refused only for enabling at
instance limit 0; configuration bytes are refused ENTRY_BUSY while enabled or live, then BAD_VALUE, and
read back as written, bits of no field reading 0; byte 6 clears the miss count; byte 7 takes no effect. -/
def Obligations.TriggerMapWritesFollowTheirClass : Prop :=
  ∀ (n : Source) (k : Fin 8) (v : Byte) (s : State), BusFree s → s.tsel = 3 →
    s.tidx.toNat = 8 * n.val + k.val →
    (k = 0 → v.getLsbD 0 = true → (s.trigger n).limit = 0 →
      exec (.tdataWrite v) s = .next { recorded .badValue s with tidx := indexAfter s })
    ∧ (k = 0 → ¬(v.getLsbD 0 = true ∧ (s.trigger n).limit = 0) →
      exec (.tdataWrite v) s = .next { s.setTrigger n
        { s.trigger n with
          enable := v.getLsbD 0
          missNotify := v.getLsbD 1
          group := Fin.ofNat 8 (v.toNat / 16) } with tidx := indexAfter s })
    ∧ (k = 6 → exec (.tdataWrite v) s =
        .next { s.setTrigger n { s.trigger n with missCount := 0 } with tidx := indexAfter s })
    ∧ (k = 7 → exec (.tdataWrite v) s = .next { s with tidx := indexAfter s })
    ∧ (1 ≤ k.val → k.val ≤ 5 → ((s.trigger n).enable = true ∨ (s.trigger n).live ≠ 0) →
      exec (.tdataWrite v) s = .next { recorded .entryBusy s with tidx := indexAfter s })
    ∧ (1 ≤ k.val → k.val ≤ 5 → (s.trigger n).enable = false → (s.trigger n).live = 0 →
      ((k = 1 ∧ 128 ≤ v.toNat)
        ∨ (k = 2 ∧ (v.toNat % 8 = 0 ∨ 4 < v.toNat % 8 ∨ v.toNat / 16 % 4 = 3))
        ∨ (k = 4 ∧ 1 ≤ v.toNat % 16 ∧ v.toNat % 16 ≤ 7)) →
      exec (.tdataWrite v) s = .next { recorded .badValue s with tidx := indexAfter s })
    ∧ (1 ≤ k.val → k.val ≤ 5 → (s.trigger n).enable = false → (s.trigger n).live = 0 →
      ¬((k = 1 ∧ 128 ≤ v.toNat)
        ∨ (k = 2 ∧ (v.toNat % 8 = 0 ∨ 4 < v.toNat % 8 ∨ v.toNat / 16 % 4 = 3))
        ∨ (k = 4 ∧ 1 ≤ v.toNat % 16 ∧ v.toNat % 16 ≤ 7)) →
      Answers (exec (.tdataWrite v) s) fun t =>
        t = { s with trig := t.trig, tidx := indexAfter s }
        ∧ (∀ m, m ≠ n → t.trigger m = s.trigger m)
        ∧ (t.trigger n).live = (s.trigger n).live
        ∧ (t.trigger n).missLatch = (s.trigger n).missLatch
        ∧ ∀ j : Fin 8, tableRead 3 (8 * n.val + j.val) t =
            if j = k then v &&& (if k = 2 then 0x3F else if k = 4 then 0x0F else 0xFF)
            else tableRead 3 (8 * n.val + j.val) s)

/-- A write of the quota and policy byte of queue `q` (R127): QUOTA_BUSY with records or reservations, then
QUOTA_BUSY for LOSSY to LOSSLESS while an attached run names `q`, then BAD_VALUE above 64, QUOTA_SUM,
BAD_VALUE below the threshold; else both fields are set and IDLE ports with a run naming `q` decide. -/
def Obligations.QuotaWritesPassFiveChecks : Prop :=
  ∀ (q : QueueId) (v : Byte) (s : State), BusFree s → s.tsel = 4 → s.tidx.toNat = 8 * q.val →
    if (s.queue q).records ≠ [] ∨ (s.queue q).resv ≠ 0 then
      exec (.tdataWrite v) s = .next { recorded .quotaBusy s with tidx := indexAfter s }
    else if (s.queue q).policy = .lossy ∧ v.getLsbD 7 = true
        ∧ ∃ n, ((s.run n).state = .active ∨ (s.run n).state = .awaiting)
            ∧ copyQueue (s.run n).copy = q then
      exec (.tdataWrite v) s = .next { recorded .quotaBusy s with tidx := indexAfter s }
    else if 64 < v.toNat % 128 then
      exec (.tdataWrite v) s = .next { recorded .badValue s with tidx := indexAfter s }
    else if 64 < v.toNat % 128
        + ((List.finRange 8).map fun x => if x = q then 0 else (s.queue x).quota).sum then
      exec (.tdataWrite v) s = .next { recorded .quotaSum s with tidx := indexAfter s }
    else if v.toNat % 128 < (s.queue q).threshold.toNat then
      exec (.tdataWrite v) s = .next { recorded .badValue s with tidx := indexAfter s }
    else
      Answers (exec (.tdataWrite v) s)
        (Decided
          (waits (s.setQueue q
            { s.queue q with quota := v.toNat % 128, policy := policyOf (v.getLsbD 7) }) q)
          { s.setQueue q
              { s.queue q with quota := v.toNat % 128, policy := policyOf (v.getLsbD 7) } with
            tidx := indexAfter s })

/-- The other bytes of the queue config table and the bytes of the group and timer tables: the threshold is
refused BAD_VALUE above the quota (R128), every other writable byte is accepted at any time (R126, R133,
R157), and a byte of read-only or no fields takes a write without effect. -/
def Obligations.QueueGroupAndTimerBytesWritten : Prop :=
  ∀ (x : Fin 8) (v : Byte) (s : State), BusFree s →
    (s.tsel = 4 → s.tidx.toNat = 8 * x.val + 1 →
      exec (.tdataWrite v) s =
        if (s.queue x).quota < v.toNat then
          .next { recorded .badValue s with tidx := indexAfter s }
        else
          .next { s.setQueue x { s.queue x with threshold := v } with tidx := indexAfter s })
    ∧ (s.tsel = 4 → s.tidx.toNat = 8 * x.val + 2 →
      exec (.tdataWrite v) s = .next { s.setQueue x
        { s.queue x with
          group := Fin.ofNat 8 v.toNat
          levelEn := v.getLsbD 4
          lostEn := v.getLsbD 5
          errEn := v.getLsbD 6 } with tidx := indexAfter s })
    ∧ (∀ k : Fin 8, 3 ≤ k.val → s.tsel = 4 → s.tidx.toNat = 8 * x.val + k.val →
      exec (.tdataWrite v) s = .next { s with tidx := indexAfter s })
    ∧ (s.tsel = 5 → s.tidx.toNat = 4 * x.val →
      exec (.tdataWrite v) s = .next { s.setGroup x
        { enable := v.getLsbD 0
          tier := if v.getLsbD 1 then .high else .low
          rank := BitVec.ofNat 3 (v.toNat / 16) } with tidx := indexAfter s })
    ∧ (∀ k : Fin 4, k ≠ 0 → s.tsel = 5 → s.tidx.toNat = 4 * x.val + k.val →
      exec (.tdataWrite v) s = .next { s with tidx := indexAfter s })
    ∧ (∀ k : TimerId, s.tsel = 8 →
      (s.tidx.toNat = 4 * k.val → exec (.tdataWrite v) s = .next { s.setTimer k
        { s.timer k with reload := (s.timer k).reload &&& 0xFF00 ||| v.setWidth 16 } with
          tidx := indexAfter s })
      ∧ (s.tidx.toNat = 4 * k.val + 1 → exec (.tdataWrite v) s = .next { s.setTimer k
        { s.timer k with
          reload := v.setWidth 16 <<< 8 ||| (s.timer k).reload &&& 0x00FF } with
            tidx := indexAfter s })
      ∧ (s.tidx.toNat = 4 * k.val + 2 → exec (.tdataWrite v) s = .next { s.setTimer k
        { s.timer k with mode := if v.getLsbD 0 then .periodic else .oneShot } with
          tidx := indexAfter s })
      ∧ (s.tidx.toNat = 4 * k.val + 3 →
        exec (.tdataWrite v) s = .next { s with tidx := indexAfter s }))

/-- The bytes of the port config table (R78, R98): the settings are stored in every state; enable 1 takes an
OFF port to IDLE with a grant decision, enable 0 an IDLE port to OFF, and no other state changes. -/
def Obligations.PortConfigWritesActByState : Prop :=
  ∀ (p : Port) (v : Byte) (s : State), BusFree s → s.tsel = 7 →
    (s.tidx.toNat = 4 * p.val → Answers (exec (.tdataWrite v) s)
      (Decided (fun x => x == p && (s.port p).state == .off && v.getLsbD 0)
        { s.setPort p
          { s.port p with
            enable := v.getLsbD 0
            haltOnError := v.getLsbD 1
            haltNotify := v.getLsbD 2
            group := Fin.ofNat 8 (v.toNat / 16)
            state := if (s.port p).state = .off ∧ v.getLsbD 0 = true then .idle
                     else if (s.port p).state = .idle ∧ v.getLsbD 0 = false then .off
                     else (s.port p).state } with tidx := indexAfter s }))
    ∧ (s.tidx.toNat = 4 * p.val + 1 → exec (.tdataWrite v) s = .next { s.setPort p
        { s.port p with starveLimit := BitVec.ofNat 4 v.toNat } with tidx := indexAfter s })
    ∧ (s.tidx.toNat = 4 * p.val + 2 ∨ s.tidx.toNat = 4 * p.val + 3 →
        exec (.tdataWrite v) s = .next { s with tidx := indexAfter s })

/-- Only TDATA writes and the end of start-up change what the host configures; NCTRL, TBDIV and COMMAND_ARG
change only at their own writes and at the end of start-up, and a port's enable only at TDATA writes and
at the resets (R20, R32, R78, R126, R133, R150, R171). That they stand unseen through RESET# and the
clear, until the end of start-up, is the model's reading (log 18). -/
def Obligations.OnlyHostWritesChangeConfiguration : Prop :=
  ∀ (c : Instr) (s t : State), exec c s = .next t → c ≠ .startUpEnd →
    ((∀ v, c ≠ .tdataWrite v) → SameTables s t)
    ∧ ((∀ v, c ≠ .nctrlWrite v) → t.nen = s.nen ∧ t.nlow = s.nlow)
    ∧ ((∀ v, c ≠ .registerWrite .tbdiv v) → t.tbdiv = s.tbdiv)
    ∧ ((∀ v, c ≠ .registerWrite .commandArg v) → t.commandArg = s.commandArg)
    ∧ ((∀ v, c ≠ .tdataWrite v) → (∀ b, c ≠ .portReset b) → c ≠ .engineReset →
        ∀ p, (t.port p).enable = (s.port p).enable)

-- Triggers and admission (chapters 1 and 2)

/-- TRIGGER_LINE_EDGE and HOLD_OFF_EXPIRY at the line itself (R2, R3): a level already seen and a change
that is not selected or falls in the hold-off touch only pin and reference; an accepted edge at a
disabled entry starts the hold-off; the expiry makes it idle. That the expiry is a command of its own,
due at 0 ticks left, is the model's form (log 5). -/
def Obligations.LineEdgesAndHoldOff : Prop :=
  ∀ (n : LineId) (src : Source) (level : Bool) (s : State), s.mode = .running →
    src.val = n.val →
    ((s.line n).ref = level → exec (.triggerLineEdge n level) s =
      .next (s.setLine n { s.line n with pin := level }))
    ∧ ((s.line n).ref ≠ level →
        (((s.trigger src).edge = .rising ∧ level = false)
          ∨ ((s.trigger src).edge = .falling ∧ level = true) ∨ (s.line n).holdOff ≠ none) →
        exec (.triggerLineEdge n level) s =
          .next (s.setLine n { s.line n with pin := level, ref := level }))
    ∧ ((s.line n).ref ≠ level → (s.line n).holdOff = none →
        ((s.trigger src).edge = .both ∨ ((s.trigger src).edge = .rising ∧ level = true)
          ∨ ((s.trigger src).edge = .falling ∧ level = false)) →
        (s.trigger src).enable = false →
        exec (.triggerLineEdge n level) s = .next (s.setLine n
          { pin := level, ref := level,
            holdOff := if (s.trigger src).holdOffTicks = 0 then none
                       else some (s.trigger src).holdOffTicks.toNat }))
    ∧ ((s.line n).holdOff = some 0 → exec (.holdOffExpiry n) s =
        .next (s.setLine n { s.line n with holdOff := none }))

/-- A trigger event of a SWTRIG write, an accepted edge or a timer expiry after which no run lives (R12,
R13, R27, R40): ignored at a disabled entry, a miss LIMIT at the instance limit, else a miss POOL with
no FREE slot; an admitted run whose first copy is invalid leaves one BAD_DESCRIPTOR record without
reservation in the copy's queue, its slot FREE again, and no miss. A timer's expiry is due at count 0
(log 5). -/
def Obligations.EventsIgnoredMissedOrInvalid : Prop :=
  ∀ (c : Instr) (src : Source) (b s : State), eventOf c s = some (src, b) →
    ((s.trigger src).enable = false → exec c s = .next b)
    ∧ ((s.trigger src).enable = true → (s.trigger src).live = (s.trigger src).limit.toNat →
        exec c s = .next (missed b src .limit))
    ∧ ((s.trigger src).enable = true → (s.trigger src).live ≠ (s.trigger src).limit.toNat →
        (∀ n, (s.run n).state ≠ .free) → exec c s = .next (missed b src .pool))
    ∧ ∀ n, (s.trigger src).enable = true →
        (s.trigger src).live ≠ (s.trigger src).limit.toNat →
        (s.run n).state = .free → (∀ m, m < n → (s.run m).state ≠ .free) →
        copyValid s (fetchCopy s.desc (s.trigger src).firstDesc) = false →
        exec c s = .next
          ((posted b (copyQueue (fetchCopy s.desc (s.trigger src).firstDesc))
            { seq := 0, status := .badDescriptor, source := src, slot := n,
              desc := (s.trigger src).firstDesc,
              tag := copyTag (fetchCopy s.desc (s.trigger src).firstDesc), trigTime := s.timestamp,
              endTime := s.timestamp, data := [] } false).setRun n freeRun)

/-- An admitted event with a valid first copy (R12, R22, R26, R40, R66): the run takes the lowest FREE slot
with the values of R40, its source has one live run more, it stands at the tail of its tier queue, and
its port, where IDLE, decides. -/
def Obligations.AdmittedRunTakesLowestSlotAndQueues : Prop :=
  ∀ (c : Instr) (src : Source) (b s : State) (n : Slot), eventOf c s = some (src, b) →
    (s.trigger src).enable = true → (s.trigger src).live ≠ (s.trigger src).limit.toNat →
    (s.run n).state = .free → (∀ m, m < n → (s.run m).state ≠ .free) →
    copyValid s (fetchCopy s.desc (s.trigger src).firstDesc) = true →
    Answers (exec c s) (Decided
      (fun x => x == targetPort s.targets
        (copyTarget (fetchCopy s.desc (s.trigger src).firstDesc)))
      (((b.setTrigger src { s.trigger src with live := (s.trigger src).live + 1 }).setRun n
        { state := .pending, source := src, tier := (s.trigger src).tier,
          trigTime := s.timestamp, desc := (s.trigger src).firstDesc,
          copy := fetchCopy s.desc (s.trigger src).firstDesc, steps := 0,
          retries := BitVec.ofNat 2 (copyRetries (fetchCopy s.desc (s.trigger src).firstDesc)),
          port := some (targetPort s.targets
            (copyTarget (fetchCopy s.desc (s.trigger src).firstDesc))),
          resv := none, mark := false, capture := [] }).setPort
        (targetPort s.targets (copyTarget (fetchCopy s.desc (s.trigger src).firstDesc)))
        ((s.port (targetPort s.targets
          (copyTarget (fetchCopy s.desc (s.trigger src).firstDesc)))).tailed
            (s.trigger src).tier n)))

/-- Validation (R25): a copy is invalid exactly where one of the seven conditions holds. -/
def Obligations.CopyInvalidBySevenConditions : Prop :=
  ∀ (d : DescCopy) (s : State),
    copyValid s d = false ↔
      (targetEnable s.targets (copyTarget d) = false
      ∨ (16 < copyRxLen d ∨ copyTxLen d + copyRxLen d = 0 ∨ 32 < copyTxLen d + copyRxLen d)
      ∨ 512 < copyOffset d + copyTxLen d
      ∨ 3 < copyRetries d
      ∨ (copyAwait d = true ∧ copyTimeout d = 0)
      ∨ (0x80 ≤ (copyNext d).toNat ∧ (copyNext d).toNat ≤ 0xFE)
      ∨ (s.queue (copyQueue d)).quota = 0)

/-- CANCEL_TRIGGER of source `src` (R16): its PENDING runs leave their queues and end ABORTED with records
without reservation in slot order, its attached runs are marked, the live-run count falls by the runs
ended, and every other run, source and queue stays. -/
def Obligations.CancelEndsPendingAndMarksAttached : Prop :=
  ∀ (src : Source) (s : State), BusFree s → s.commandArg.toNat = src.val → RunsPlaced s →
    Answers (exec .cancelTrigger s) fun t =>
      t = { s with
            trig := t.trig, runs := t.runs, ports := t.ports, queues := t.queues,
            headPtr := t.headPtr }
      ∧ (∀ n, t.run n =
          if (s.run n).source ≠ src ∨ (s.run n).state = .free then s.run n
          else if (s.run n).state = .pending then freeRun
          else { s.run n with mark := true })
      ∧ (∀ m, t.trigger m =
          if m = src then
            { s.trigger src with
              live := (s.trigger src).live - allSlots.countP fun n =>
                (s.run n).state == .pending && (s.run n).source == src }
          else s.trigger m)
      ∧ (∀ p, t.port p =
          { s.port p with
            urgent := (s.port p).urgent.filter fun n => (s.run n).source != src
            normal := (s.port p).normal.filter fun n => (s.run n).source != src })
      ∧ (∀ q, AbortedInOrder s t q
          (allSlots.filter fun n => (s.run n).state == .pending && (s.run n).source == src)
          (fun _ => []) false)
      ∧ HeadAfterPostings s t

-- Time base and interval timers (chapter 8)

/-- TICK (R153, R154, R159): the expiries of the tick before come first, the part clocks left of the tick
period pass, and with the tick the timestamp rises by 1 and wraps, the part-clock count starts again
under TBDIV, and every running hold-off, ready timeout, gap and timer takes it, and nothing else. That
expiries are commands of their own, due until the next tick at the latest, and that TICK stands for the
rest of its period, is the model's form (logs 5, 20). -/
def Obligations.TickAdvancesEveryCount : Prop :=
  ∀ (s : State), s.mode = .running →
    ∃ u, Settled s u
      ∧ Answers (exec .tick s) (Ticked (u.tickDiv.toNat + 1 - u.clockCount) u)

/-- A step on an empty queue is one part clock (R86, R153, R186): the expiries of the last tick come first,
the frames move on, IRQ# takes the state of the claimable set, and the part-clock count rises, or, at
TBDIV + 1, starts again with the tick. Nothing else changes IRQ#, but a TICK, the end of start-up and
the part clocks before a PORT_ABORT or PORT_RESET. That a part clock is what an idle step is, and that
events are commands between part clocks, is the model's choice (logs 1, 4, 5, 22). -/
def Obligations.IdleStepIsOnePartClock : Prop :=
  (∀ (s : State), s.pending = [] → s.mode ≠ .running → step s = .next s)
  ∧ (∀ (s : State), s.pending = [] → s.mode = .running → Answers (step s) (PartClock s))
  ∧ ∀ (c : Instr) (s t : State), exec c s = .next t → c ≠ .tick → c ≠ .startUpEnd →
      (∀ k, c ≠ .portAbort (k + 1)) → (∀ k, c ≠ .portReset (k + 1)) → t.irqSample = s.irqSample

/-- A count of `N` ticks reaches its expiry at the `N`-th tick and not before (R156): after `k` ticks, `k`
at most `N`, a hold-off, a ready timeout or a gap has `N - k` left, and the timestamp has risen by `k`.
A count at 0 is due, and its expiry a command of its own (log 5). -/
def Obligations.CountsExpireAtTheirTick : Prop :=
  ∀ (N k : Nat) (n : LineId) (p : Port) (s : State), s.mode = .running → k ≤ N →
    Answers (Host.Core.run core k { s with pending := List.replicate k .tick }) fun t =>
      t.pending = [] ∧ t.timestamp = s.timestamp + BitVec.ofNat 16 k
      ∧ ((s.line n).holdOff = some N → (t.line n).holdOff = some (N - k))
      ∧ ((s.port p).interval = some N → ((s.port p).state = .await ∨ (s.port p).state = .gap) →
          (t.port p).interval = some (N - k))

/-- TIMER_START and TIMER_STOP (R158-R160): an argument from 4 on is refused; a start with reload 0 is
refused and keeps the timer; a start loads the reload and runs; a stop leaves the timer stopped with
count 0, also where it stood stopped. Where the last tick has made the timer's expiry due, the expiry
comes before the command (log 5). -/
def Obligations.TimerStartAndStop : Prop :=
  ∀ (k : TimerId) (s : State), BusFree s →
    (4 ≤ s.commandArg.toNat →
      exec .timerStart s = .next (recorded .badArgument s)
      ∧ exec .timerStop s = .next (recorded .badArgument s))
    ∧ (s.commandArg.toNat = k.val → ¬((s.timer k).running = true ∧ (s.timer k).count = 0) →
      ((s.timer k).reload = 0 → exec .timerStart s = .next (recorded .badArgument s))
      ∧ ((s.timer k).reload ≠ 0 → exec .timerStart s = .next (s.setTimer k
          { s.timer k with count := (s.timer k).reload, running := true }))
      ∧ exec .timerStop s =
          .next (s.setTimer k { s.timer k with running := false, count := 0 })
      ∧ ((s.timer k).running = false → (s.timer k).count = 0 → exec .timerStop s = .next s))
    ∧ (s.commandArg.toNat = k.val → (s.timer k).running = true → (s.timer k).count = 0 →
      Answers (exec (.intervalTimerExpiry k) s) fun u =>
        BusFree u ∧ u.commandArg = s.commandArg
        ∧ ¬((u.timer k).running = true ∧ (u.timer k).count = 0)
        ∧ exec .timerStart s = exec .timerStart u ∧ exec .timerStop s = exec .timerStop u)

/-- A read of TSTAMP_LO (R155): the low byte is returned and the high byte of the same value latched, so
that the two bytes belong to one timestamp; TSTAMP_HI reads the latch. -/
def Obligations.TimestampReadTakesBothBytes : Prop :=
  ∀ (s : State), BusFree s → Answers (exec .tstampLoRead s) fun t =>
    t = { s with dataOut := t.dataOut, tsLatch := t.tsLatch }
    ∧ t.tsLatch ++ t.dataOut = s.timestamp
    ∧ readRegister 0x18 t = t.tsLatch

-- What the host sees

/-- What the registers of the window read while the part runs (R14, R39, R90, R119, R135, R139, R155, R161,
R166, R173 and 10 10.5). -/
def Obligations.WindowShowsTheState : Prop :=
  ∀ (s : State), s.mode = .running →
    (readRegister 0x02 s).toNat =
      (if ∃ g, claimable s g = true then 2 else 0)
        + (if ∃ p, (s.port p).state = .halted then 4 else 0)
        + (if s.fault ≠ .none then 8 else 0)
    ∧ (readRegister 0x05 s).toNat =
        [FaultCode.none, .badCommand, .badArgument, .badValue, .entryBusy, .quotaBusy, .quotaSum,
          .readOnly, .endEmpty, .endMismatch, .staleRelease, .emptyRelease].idxOf s.fault
        + 16 * s.laterFaults.toNat
    ∧ readRegister 0x04 s = s.commandArg ∧ readRegister 0x07 s = s.tbdiv
    ∧ (readRegister 0x0E s).toNat =
        (if (s.queue s.rqsel).lost then 1 else 0) + (if (s.queue s.rqsel).err then 2 else 0)
        + (if (s.queue s.rqsel).threshold ≠ 0
              ∧ (s.queue s.rqsel).threshold.toNat ≤ (s.queue s.rqsel).records.length then 4
           else 0)
    ∧ (readRegister 0x12 s).toNat = (if s.nen then 1 else 0) + (if s.nlow then 2 else 0)
    ∧ (s.stack = [] → readRegister 0x15 s = 0)
    ∧ (∀ g, s.stack = [{ group := g, tier := .low }] → (readRegister 0x15 s).toNat = 8 + g.val)
    ∧ (∀ g, s.stack = [{ group := g, tier := .high }] →
        (readRegister 0x15 s).toNat = 16 * (8 + g.val))
    ∧ (∀ g h, s.stack = [{ group := h, tier := .high }, { group := g, tier := .low }] →
        (readRegister 0x15 s).toNat = 16 * (8 + h.val) + 8 + g.val)
    ∧ (∀ g : GroupId, (readRegister 0x16 s).getLsbD g.val = pendingGroup s g)
    ∧ readRegister 0x17 s = s.timestamp.setWidth 8
    ∧ (∀ (a : Fin 32) (x y : Port), (a, x, y) ∈ [((0x19 : Fin 32), (0 : Port), (1 : Port)), (0x1A, 2, 3)] →
        (readRegister a s).toNat =
          [PortState.off, .idle, .shifting, .await, .gap, .halted].idxOf (s.port x).state
          + 16 * [PortState.off, .idle, .shifting, .await, .gap, .halted].idxOf (s.port y).state)
    ∧ (∀ i : Fin 8, (readRegister 0x1B s).getLsbD i.val =
        if h : i.val < 4 then (s.timer ⟨i.val, h⟩).running else false)
    ∧ (readRegister 0x1C s).toNat = allSlots.countP fun n => (s.run n).state == .free
    ∧ (∀ i : Fin 24, (readRegister (Fin.ofNat 32 (0x1D + i.val / 8)) s).getLsbD (i.val % 8) =
        if h : i.val < 20 then (s.trigger ⟨i.val, h⟩).missLatch else false)

/-- The run pool view (R41, R181): the twelve bytes of slot `n` show its run as it stands, copy fields from
the run's own copy; a FREE slot reads 00h throughout. -/
def Obligations.RunPoolViewShowsRuns : Prop :=
  ∀ (n : Slot) (s : State),
    (∀ k : Fin 12, s.run n = freeRun → tableRead 6 (12 * n.val + k.val) s = 0)
    ∧ (tableRead 6 (12 * n.val) s).toNat =
        [RunState.free, .pending, .active, .awaiting].idxOf (s.run n).state
        + (if (s.run n).tier = .urgent then 4 else 0) + (if (s.run n).mark then 8 else 0)
        + ((s.run n).port.map fun p => 16 + 32 * p.val).getD 0
    ∧ (tableRead 6 (12 * n.val + 1) s).toNat = (s.run n).source.val
    ∧ tableRead 6 (12 * n.val + 3) s ++ tableRead 6 (12 * n.val + 2) s = (s.run n).trigTime
    ∧ (tableRead 6 (12 * n.val + 4) s).toNat = (s.run n).desc.val
    ∧ tableRead 6 (12 * n.val + 5) s = (s.run n).steps
    ∧ (tableRead 6 (12 * n.val + 6) s).toNat =
        (s.run n).retries.toNat + ((s.run n).resv.map fun q => 16 + 32 * q.val).getD 0
    ∧ (tableRead 6 (12 * n.val + 7) s).toNat =
        (s.run n).copy[0].toNat % 8 + 16 * ((s.run n).copy[4].toNat / 2 % 8)
    ∧ tableRead 6 (12 * n.val + 8) s = (s.run n).copy[5]
    ∧ tableRead 6 (12 * n.val + 9) s = (s.run n).copy[7]
    ∧ tableRead 6 (12 * n.val + 10) s = 0 ∧ tableRead 6 (12 * n.val + 11) s = 0

-- Ports, frames and runs (chapters 3 to 5)

/-- TRANSMIT_BYTE_BEGINS reads the next pattern byte at its launch (R33, R87); RECEIVE_BYTE_SAMPLED appends
one byte, assembled in the target's bit order, to the run's capture buffer when its last bit is sampled,
half a bit period later with delayed sample (R43, R87-R89); nothing else changes but how far the frame
has come. The bits on Pn_DI are an operand (log 8), and an event puts its frame at its own point (log
4). -/
def Obligations.FrameBytesSentAndCaptured : Prop :=
  ∀ (p : Port) (n : Slot) (f : Frame) (bits : Byte) (s : State), s.mode = .running →
    (s.port p).state = .shifting → (s.port p).attached = some n → (s.port p).frame = some f →
    (f.sent.length < copyTxLen (s.run n).copy → exec (.transmitByteBegins p) s =
      .next (s.setPort p
        { s.port p with
          frame := some { f with
            sent := f.sent ++
              [memRead s.pattern (copyOffset (s.run n).copy + f.sent.length)]
            clocks := max f.clocks (clocksAt f (launchHalf f.mode (8 * f.sent.length))) } }))
    ∧ (f.sent.length = copyTxLen (s.run n).copy →
        (s.run n).capture.length < copyRxLen (s.run n).copy →
        Answers (exec (.receiveByteSampled p bits) s) fun t =>
          t = (s.setRun n { s.run n with capture := (t.run n).capture }).setPort p
            { s.port p with
              frame := some { f with
                clocks := max f.clocks (clocksAt f (sampleHalf f.mode f.delayed
                  (8 * (f.txLen + (s.run n).capture.length) + 7))) } }
          ∧ (t.run n).capture.length = (s.run n).capture.length + 1
          ∧ (t.run n).capture.dropLast = (s.run n).capture
          ∧ ∀ i : Fin 8, ((t.run n).capture.getLastD 0).getLsbD i.val =
              bits.getLsbD (if f.lsbFirst then i.val else 7 - i.val))

/-- The output pins of port `p` (R81, R87, R89, R91, R103, R104). Outside SHIFTING, and in RESET# and
start-up, both selects are high, Pn_DO is low and Pn_CLK rests, low in RESET# and start-up. In SHIFTING,
`h` half bit periods after select assertion: one select is low; Pn_CLK is away from its idle level in
the second half of each bit period; Pn_DO holds the bit launched last, of the pattern byte or, in the
receive phase, of the fill byte, low before the first launch and after the last bit period. Before
select assertion a changed clock stands at its new level already. How far the frame has come is the
model's form (log 4), and so is the level at which Pn_CLK rests outside SHIFTING, that of the mode read
at the last frame start, whatever is written to the clock target's entry since (log 12). -/
def Obligations.PinsFollowTheFrame : Prop :=
  ∀ (p : Port) (line : Bool) (f : Frame) (h : Nat) (s : State),
    ((s.mode ≠ .running ∨ (s.port p).state ≠ .shifting) →
      selectPin s p line = true ∧ dataPin s p = false
      ∧ clockPin s p = (if s.mode = .running then (s.port p).clkIdle else false))
    ∧ (s.mode = .running → (s.port p).state = .shifting → (s.port p).frame = some f →
      f.clocks < clocksAt f 0 →
      selectPin s p line = true ∧ dataPin s p = false ∧ clockPin s p = (s.port p).clkIdle)
    ∧ (s.mode = .running → (s.port p).state = .shifting → (s.port p).frame = some f →
      clocksAt f h ≤ f.clocks → f.clocks < clocksAt f (h + 1) →
      selectPin s p line = (f.select != line)
      ∧ (16 * (f.txLen + f.rxLen) ≤ h →
          clockPin s p = (s.port p).clkIdle ∧ dataPin s p = false)
      ∧ (h < 16 * (f.txLen + f.rxLen) →
        clockPin s p = (if h % 2 = 0 then (s.port p).clkIdle else !(s.port p).clkIdle)
        ∧ (h < launchHalf f.mode 0 → dataPin s p = false)
        ∧ ∀ (k : Nat) (i : Fin 8), launchHalf f.mode (8 * k + i.val) ≤ h →
            h < launchHalf f.mode (8 * k + i.val + 1) →
            dataPin s p = (if k < f.txLen then f.sent.getD k 0 else f.fill).getLsbD
              (if f.lsbFirst then i.val else 7 - i.val)))

/-- FRAME_END with AWAIT 1 (R44, R92-R94): with the ready line inactive the run becomes AWAITING and the
port waits with the copy's timeout; a line that is ready already has the effect of its arrival in that
wait, in the same event. The level of Pn_RDY is an operand, and a frame ends only when all its bytes
have gone (logs 7, 8). -/
def Obligations.FrameEndWithAwaitWaitsForReady : Prop :=
  ∀ (p : Port) (n : Slot) (f : Frame) (s : State), s.mode = .running →
    (s.port p).state = .shifting → (s.port p).attached = some n → (s.port p).frame = some f →
    f.sent.length = copyTxLen (s.run n).copy →
    (s.run n).capture.length = copyRxLen (s.run n).copy → copyAwait (s.run n).copy = true →
    exec (.frameEnd p (targetReadyLow s.targets (copyTarget (s.run n).copy))) s =
      .next (awaiting s p n)
    ∧ exec (.frameEnd p (!targetReadyLow s.targets (copyTarget (s.run n).copy))) s =
      exec (.readyArrival p (!targetReadyLow s.targets (copyTarget (s.run n).copy)))
        (awaiting s p n)

/-- A step that succeeds for a marked run ends it ABORTED (R49, R57), and one that reaches the step limit
with a next other than FFh ends it STEP_LIMIT (R51): one record with the captured bytes, whatever POST
holds, the slot FREE, the port in its gap, no on-end trigger. The decision follows the whole run-pool
event (log 11). -/
def Obligations.MarkedOrLimitedStepEndsRun : Prop :=
  ∀ (c : Instr) (p : Port) (n : Slot) (s : State), endsStep c p n s = true → HoldsProperly s n →
    ((s.run n).mark = true → Answers (exec c s) (Decided (fun x => x == p)
      ((endedRun s n .aborted (s.run n).capture).setPort p
        ((s.port p).gapAfter (gapOf s n)))))
    ∧ ((s.run n).mark = false → copyNext (s.run n).copy ≠ 0xFF → reachesLimit s n = true →
      Answers (exec c s) (Decided (fun x => x == p)
        ((endedRun s n .stepLimit (s.run n).capture).setPort p
          ((s.port p).gapAfter (gapOf s n)))))

/-- A step that succeeds at next END ends the run successfully (R50, R59, R60): an OK record with POST 1,
the reservation returned with POST 0, the slot FREE, the port in its gap, and the on-end trigger judged
as a SWTRIG write for the same source would be, after the end is complete (R6). That the decisions come
before the on-end event is the model's choice (log 11). -/
def Obligations.StepAtEndOfChainEndsRun : Prop :=
  ∀ (c : Instr) (p : Port) (n : Slot) (s : State), endsStep c p n s = true → HoldsProperly s n →
    (s.run n).mark = false → copyNext (s.run n).copy = 0xFF →
    ((s.trigger (s.run n).source).onEnd = none → Answers (exec c s)
      (Decided (fun x => x == p || returnLeads (endedWell s p n) (returnedIn s n) x)
        (endedWell s p n)))
    ∧ (∀ k, (s.trigger (s.run n).source).onEnd = some k → s.claim = .closed →
        ∃ t, Decided (fun x => x == p || returnLeads (endedWell s p n) (returnedIn s n) x)
            (endedWell s p n) t
          ∧ exec c s = exec (.swtrigWrite (BitVec.ofNat 8 k.val)) t)

/-- A step that succeeds and meets the four conditions continues the run on its port (R52, R53): the OK
record or the return first, the next copy current, a reservation in a LOSSLESS queue, the port in its
gap with the run attached; the only decisions are those of the ports that a return in another queue
leads. That they follow the whole run-pool event is the model's choice (log 11). -/
def Obligations.KeepContinuationStaysOnPort : Prop :=
  ∀ (c : Instr) (p : Port) (n : Slot) (s : State), endsStep c p n s = true → HoldsProperly s n →
    advances s n = true → copyValid s (nextCopy s n) = true → keeps s p n = true →
    Answers (exec c s) (Decided
      (fun x => decide (returnedIn s n ≠ some (copyQueue (nextCopy s n)))
        && returnLeads (continued s p n) (returnedIn s n) x)
      (continued s p n))

/-- An advance without a KEEP continuation re-queues the run PENDING at the tail on the new target's port
(R54), and an advance to an invalid copy ends it BAD_DESCRIPTOR (R27, R52); the port it left enters its
gap, and the ports that the gap's end, the queue entry or a return leads make their decisions. That they
follow the whole run-pool event is the model's choice (log 11). -/
def Obligations.AdvanceRequeuesOrEndsInvalid : Prop :=
  ∀ (c : Instr) (p : Port) (n : Slot) (s : State), endsStep c p n s = true → HoldsProperly s n →
    AccountingBounded s → advances s n = true →
    (copyValid s (nextCopy s n) = true → keeps s p n = false → Answers (exec c s) (Decided
      (fun x => x == p || x == targetPort s.targets (copyTarget (nextCopy s n))
        || returnLeads (requeued s p n) (returnedIn s n) x)
      (requeued s p n)))
    ∧ (copyValid s (nextCopy s n) = false → Answers (exec c s) (Decided
      (fun x => x == p || returnLeads (endedInvalid s p n) (returnedIn s n) x)
      (endedInvalid s p n)))

/-- A ready timeout with retries left and no mark retries the step (R46, R95): retries left falls, the
reservation is returned, no record is posted, the run stands PENDING at the tail on the same port. The
expiry is due at 0 ticks left (log 5), and its decisions follow the whole event (log 11). -/
def Obligations.TimeoutWithRetriesLeftRetries : Prop :=
  ∀ (p : Port) (n : Slot) (s : State), timesOut p n s = true → HoldsProperly s n →
    (s.run n).mark = false → (s.run n).retries ≠ 0 →
    Answers (exec (.readyTimeoutExpiry p) s) (Decided
      (fun x => x == p || returnLeads (retried s p n) (s.run n).resv x) (retried s p n))

/-- A ready timeout of a marked run ends it ABORTED whatever its retries (R57); without retries left the
step fails with a TIMEOUT record (R47, R55), and the port halts where halt-on-error is 1 (R75) and
enters its gap otherwise. The expiry is due at 0 ticks left (log 5). -/
def Obligations.TimeoutEndsMarkedOrSpentRun : Prop :=
  ∀ (p : Port) (n : Slot) (s : State), timesOut p n s = true → HoldsProperly s n →
    ((s.run n).mark = true → Answers (exec (.readyTimeoutExpiry p) s) (Decided (fun x => x == p)
      ((endedRun s n .aborted (s.run n).capture).setPort p
        ((s.port p).gapAfter (gapOf s n)))))
    ∧ ((s.run n).mark = false → (s.run n).retries = 0 → (s.port p).haltOnError = false →
      Answers (exec (.readyTimeoutExpiry p) s) (Decided (fun x => x == p)
        ((endedRun s n .timeout (s.run n).capture).setPort p
          ((s.port p).gapAfter (gapOf s n)))))
    ∧ ((s.run n).mark = false → (s.run n).retries = 0 → (s.port p).haltOnError = true →
      exec (.readyTimeoutExpiry p) s =
        .next ((endedRun s n .timeout (s.run n).capture).setPort p
          { s.port p with
            state := .halted, interval := none, cut := .none, frame := none, attached := none }))

/-- GAP_EXPIRY (R97): with no run the port goes OFF, or IDLE with a decision; a kept run's frame starts
whatever the enable (R91); a marked kept run ends ABORTED with no data (R58), the port as with no run.
The expiry is due at 0 ticks left (log 5). -/
def Obligations.GapExpiryStartsOrLeaves : Prop :=
  ∀ (p : Port) (n : Slot) (s : State), s.mode = .running → (s.port p).state = .gap →
    (s.port p).interval = some 0 →
    ((s.port p).attached = none → Answers (exec (.gapExpiry p) s) (Decided (fun x => x == p)
      (s.setPort p
        { s.port p with
          state := if (s.port p).enable then .idle else .off
          interval := none
          cut := .none })))
    ∧ ((s.port p).attached = some n → (s.run n).mark = false → exec (.gapExpiry p) s =
      .next ((s.setRun n { s.run n with capture := [] }).setPort p
        ((s.port p).frameStarted s.targets n (s.run n).copy)))
    ∧ ((s.port p).attached = some n → (s.run n).mark = true → HoldsProperly s n →
      Answers (exec (.gapExpiry p) s) (Decided (fun x => x == p)
        ((endedRun s n .aborted []).setPort p
          { s.port p with
            state := if (s.port p).enable then .idle else .off
            interval := none
            cut := .none
            attached := none })))

/-- CUT_BYTE_END (R101): a byte cut by PORT_ABORT leaves the port in its target's gap, one cut by PORT_RESET
leaves it OFF, or IDLE with a decision where the enable has been written 1 meanwhile. The gap is read
from the clock target's entry at the byte's end (log 21). -/
def Obligations.CutByteEndFollowsIndicator : Prop :=
  ∀ (p : Port) (tg : TargetId) (s : State), s.mode = .running → (s.port p).state = .shifting →
    (s.port p).attached = none →
    ((s.port p).cut = .abort → (s.port p).clockTarget = some tg →
      Answers (exec (.cutByteEnd p) s) (Decided (fun x => x == p)
        (s.setPort p ((s.port p).gapAfter (targetGap s.targets tg)))))
    ∧ ((s.port p).cut = .reset → Answers (exec (.cutByteEnd p) s) (Decided (fun x => x == p)
      (s.setPort p
        { s.port p with
          state := if (s.port p).enable then .idle else .off
          interval := none
          cut := .none
          frame := none })))

/-- PORT_ABORT of port `p` (R62, R100, R101): without an attached run no effect; the run ends ABORTED with
the bytes captured, or none in GAP; the port finishes the byte in progress, or enters its gap at once,
or goes on with its gap. How far its frame has come when the command is taken is the model's choice, as
are the part clocks that the command may say have passed since the step before (log 4): they pass first. -/
def Obligations.PortAbortEndsTheAttachedRun : Prop :=
  (∀ (k : Nat) (s : State), s.mode = .running →
    ∃ t, PartClock s t ∧ exec (.portAbort (k + 1)) s = exec (.portAbort k) t)
  ∧ ∀ (p : Port) (n : Slot) (tg : TargetId) (s : State), BusFree s →
    s.commandArg.toNat = p.val →
    ((s.port p).attached = none → exec (.portAbort 0) s = .next s)
    ∧ ((s.port p).attached = some n → HoldsProperly s n → (s.port p).state = .shifting →
        (s.port p).frame.any insideByte = true →
        exec (.portAbort 0) s =
          .next ((endedRun s n .aborted (s.run n).capture).setPort p
            { s.port p with attached := none, cut := .abort }))
    ∧ ((s.port p).attached = some n → HoldsProperly s n → (s.port p).clockTarget = some tg →
        ((s.port p).state = .await
          ∨ ((s.port p).state = .shifting ∧ (s.port p).frame.any insideByte = false)) →
        Answers (exec (.portAbort 0) s) (Decided (fun x => x == p)
          ((endedRun s n .aborted (s.run n).capture).setPort p
            ((s.port p).gapAfter (targetGap s.targets tg)))))
    ∧ ((s.port p).attached = some n → HoldsProperly s n → (s.port p).state = .gap →
        exec (.portAbort 0) s =
          .next ((endedRun s n .aborted []).setPort p { s.port p with attached := none }))

/-- PORT_RESET of port `p` (R63, R79, R102): the attached run, then the URGENT and the NORMAL queue from
head to tail, end ABORTED with records in that order; the enable and the starvation counter are cleared
and the port is OFF, or finishes its byte with the cut indicator RESET; no other port's run, queue or
setting changes, and no grant is made. How far its frame has come when the command is taken is the
model's choice, as are the part clocks that the command may say have passed since the step before (log
4): they pass first. -/
def Obligations.PortResetDrainsThePort : Prop :=
  (∀ (k : Nat) (s : State), s.mode = .running →
    ∃ t, PartClock s t ∧ exec (.portReset (k + 1)) s = exec (.portReset k) t)
  ∧ ∀ (p : Port) (s : State), BusFree s → s.commandArg.toNat = p.val →
    RunsPlaced s → (∀ n, (s.port p).attached = some n → HoldsProperly s n) →
    Answers (exec (.portReset 0) s) fun t =>
      t = { s with
            trig := t.trig, runs := t.runs, ports := t.ports, queues := t.queues,
            headPtr := t.headPtr }
      ∧ (∀ n, t.run n =
          if n ∈ (s.port p).attached.toList ++ (s.port p).urgent ++ (s.port p).normal then freeRun
          else s.run n)
      ∧ (∀ m, t.trigger m =
          { s.trigger m with
            live := (s.trigger m).live -
              ((s.port p).attached.toList ++ (s.port p).urgent ++ (s.port p).normal).countP
                fun n => (s.run n).source == m })
      ∧ (∀ x, t.port x =
          if x ≠ p then s.port x
          else if (s.port p).state = .shifting ∧ ((s.port p).attached = none
              ∨ (s.port p).frame.any insideByte = true) then
            { s.port p with
              enable := false, starveCount := 0, urgent := [], normal := [], attached := none,
              cut := .reset }
          else
            { s.port p with
              enable := false, starveCount := 0, urgent := [], normal := [], attached := none,
              cut := .none, state := .off, interval := none, frame := none })
      ∧ (∀ q, AbortedInOrder s t q
          ((s.port p).attached.toList ++ (s.port p).urgent ++ (s.port p).normal)
          (fun n => if (s.port p).attached = some n ∧ (s.port p).state ≠ .gap
                    then (s.run n).capture else [])
          ((s.port p).attached.any fun n => (s.run n).resv == some q))
      ∧ HeadAfterPostings s t

/-- PORT_RESUME of port `p` and the grant rule (R70, R73, R76): no effect unless HALTED; to OFF where
disabled; else to IDLE with a decision, which grants the first eligible URGENT run, unless the
starvation limit is nonzero and reached while a NORMAL run is eligible, else the first eligible NORMAL
run, or none. -/
def Obligations.PortResumeGrantsByRule : Prop :=
  ∀ (p : Port) (a b : Slot) (s : State), BusFree s → s.commandArg.toNat = p.val →
    ((s.port p).state ≠ .halted → exec .portResume s = .next s)
    ∧ ((s.port p).state = .halted → (s.port p).enable = false → exec .portResume s =
        .next (s.setPort p { s.port p with state := .off }))
    ∧ ((s.port p).state = .halted → (s.port p).enable = true →
        (s.port p).urgent.find? (eligible s) = none →
        (s.port p).normal.find? (eligible s) = none → exec .portResume s =
          .next (s.setPort p { s.port p with state := .idle }))
    ∧ ((s.port p).state = .halted → (s.port p).enable = true →
        (s.port p).urgent.find? (eligible s) = some a →
        ((s.port p).normal.find? (eligible s) = none ∨ (s.port p).starveLimit = 0
          ∨ (s.port p).starveCount < (s.port p).starveLimit) → exec .portResume s =
          .next (granted s p .urgent a ((s.port p).normal.find? (eligible s)).isSome))
    ∧ ((s.port p).state = .halted → (s.port p).enable = true →
        (s.port p).normal.find? (eligible s) = some b →
        ((s.port p).urgent.find? (eligible s) = none
          ∨ ((s.port p).starveLimit ≠ 0 ∧ (s.port p).starveLimit ≤ (s.port p).starveCount)) →
        exec .portResume s = .next (granted s p .normal b true))

-- Result queues (chapter 6)

/-- RQRELEASE and FLUSH_QUEUE (R123, R125): the head record's sequence number removes it and returns the
pointer to 0, and IDLE ports with a run naming the queue decide; any other value, and any value on an
empty queue, is refused. A flush of queue `q` discards its records and nothing else of it, the pointer
returns to 0 where `q` is selected, and IDLE ports with a run naming `q` decide. -/
def Obligations.ReleaseAndFlushRemoveRecords : Prop :=
  ∀ (v : Byte) (r : Record) (rest : List Record) (s : State), BusFree s →
    ((s.queue s.rqsel).records = [] →
      exec (.rqreleaseWrite v) s = .next (recorded .emptyRelease s))
    ∧ ((s.queue s.rqsel).records = r :: rest → r.seq ≠ v →
      exec (.rqreleaseWrite v) s = .next (recorded .staleRelease s))
    ∧ ((s.queue s.rqsel).records = r :: rest → r.seq = v →
      Answers (exec (.rqreleaseWrite v) s) (Decided
        (waits (s.setQueue s.rqsel { s.queue s.rqsel with records := rest }) s.rqsel)
        { s.setQueue s.rqsel { s.queue s.rqsel with records := rest } with headPtr := 0 }))
    ∧ ∀ q : QueueId, s.commandArg.toNat = q.val →
        Answers (exec .flushQueue s) (Decided
          (waits (s.setQueue q { s.queue q with records := [] }) q)
          { s.setQueue q { s.queue q with records := [] } with
            headPtr := if s.rqsel = q then 0 else s.headPtr })

/-- RQSEL and RQHEAD (R120, R121, R181): a write of 0 to 7 selects the queue and sets the pointer to 0,
every other value is refused; RQSEL, RQLEVEL and RQLOST read the selection and the selected queue's
counts; a read of RQHEAD gives the head record's byte at the pointer, in the stream order, and moves the
pointer on, and gives 00h with the pointer kept past the record's end and on an empty queue. -/
def Obligations.SelectedQueueStreamsItsHeadRecord : Prop :=
  ∀ (v : Byte) (r : Record) (rest : List Record) (s : State), BusFree s →
    (∀ q : QueueId, v.toNat = q.val → Answers (exec (.rqselWrite v) s) fun t =>
      t = { s with rqsel := q, headPtr := 0 } ∧ readRegister 0x0C t = v
      ∧ readRegister 0x0D t = BitVec.ofNat 8 (s.queue q).records.length
      ∧ readRegister 0x0F t = (s.queue q).lostCount)
    ∧ (8 ≤ v.toNat → exec (.rqselWrite v) s = .next (recorded .badArgument s))
    ∧ ((s.queue s.rqsel).records = [] → exec .rqheadRead s = .next { s with dataOut := 0 })
    ∧ ((s.queue s.rqsel).records = r :: rest → s.headPtr < 11 + r.data.length →
        exec .rqheadRead s = .next { s with
          dataOut := streamByte r s.headPtr
          headPtr := s.headPtr + 1 })
    ∧ ((s.queue s.rqsel).records = r :: rest → 11 + r.data.length ≤ s.headPtr →
        exec .rqheadRead s = .next { s with dataOut := 0 })

-- Notification controller (chapter 7)

/-- Pending, claimable, STATUS and IRQ# (R131, R134, R135, R140, R142, R186): the active sources are those
of the queues, trigger sources and halted ports that name the group; a group is pending while enabled
and fed, claimable under the four conditions; STATUS shows whether some group is claimable now, and IRQ#
whether one was at the last part clock. That IRQ# takes the set at part clocks is the model's form (log
22). -/
def Obligations.ClaimableByFourConditions : Prop :=
  ∀ (g : GroupId) (s : State),
    activeSources s g = feeding s g
    ∧ (tableRead 5 (4 * g.val + 2) s).toNat = feeding s g
    ∧ (pendingGroup s g = true ↔ (s.group g).enable = true ∧ 0 < feeding s g)
    ∧ (claimable s g = true ↔
        pendingGroup s g = true ∧ (∀ e, e ∈ s.stack → e.group ≠ g) ∧ s.nen = true
        ∧ (((s.group g).tier = .high ∧ ∀ e, e ∈ s.stack → e.tier ≠ .high)
          ∨ ((s.group g).tier = .low ∧ s.nlow = true ∧ s.stack = [])))
    ∧ (s.mode = .running → ((readRegister 0x02 s).getLsbD 1 = true ↔ ∃ h, claimable s h = true))
    ∧ (irqPin s = false ↔ s.mode = .running ∧ s.irqSample = true)

/-- The best claimable group (R141): HIGH before LOW, then the lower rank, then the lower number. -/
def Obligations.BestClaimableByThreeTests : Prop :=
  ∀ (g : GroupId) (s : State),
    (bestClaimable s = some g ↔
      claimable s g = true ∧ ∀ h, h ≠ g → claimable s h = true →
        ((s.group g).tier = .high ∧ (s.group h).tier = .low)
        ∨ ((s.group g).tier = (s.group h).tier
            ∧ ((s.group g).rank < (s.group h).rank
              ∨ ((s.group g).rank = (s.group h).rank ∧ g < h))))
    ∧ (bestClaimable s = none ↔ ∀ h, claimable s h = false)

/-- NCLAIM (R143-R145): the start of the read fixes the best claimable group and drives its value, 80h where
none is; the rising edge pushes the group chosen, whatever has come between; a whole read does both, and
the group it takes is claimable no longer. The cycle in three parts is the model's form (log 9). -/
def Obligations.NclaimReadClaimsBestGroup : Prop :=
  ∀ (g : GroupId) (e : StackEntry) (s : State), s.mode = .running →
    (s.claim = .closed → bestClaimable s = none →
      exec (.nclaimRead .whole) s = .next { s with dataOut := 0x80 }
      ∧ exec (.nclaimRead .start) s = .next { s with dataOut := 0x80, claim := .opened none })
    ∧ (s.claim = .closed → bestClaimable s = some g →
      (Answers (exec (.nclaimRead .whole) s) fun t =>
        t = { s with
              dataOut := BitVec.ofNat 8 (g.val + if (s.group g).tier = .high then 8 else 0)
              stack := { group := g, tier := (s.group g).tier } :: s.stack }
        ∧ claimable t g = false)
      ∧ exec (.nclaimRead .start) s = .next { s with
          dataOut := BitVec.ofNat 8 (g.val + if (s.group g).tier = .high then 8 else 0)
          claim := .opened (some { group := g, tier := (s.group g).tier }) })
    ∧ (s.claim = .opened none → exec (.nclaimRead .edge) s = .next { s with claim := .closed })
    ∧ (s.claim = .opened (some e) → exec (.nclaimRead .edge) s =
        .next { s with claim := .closed, stack := e :: s.stack })

/-- NEND (R146): judged in order BAD_ARGUMENT, END_EMPTY, END_MISMATCH, else the top entry is popped; NEND
reads 00h. -/
def Obligations.NendPopsTheTopEntry : Prop :=
  ∀ (v : Byte) (top : StackEntry) (rest : List StackEntry) (s : State), BusFree s →
    (8 ≤ v.toNat → exec (.nendWrite v) s = .next (recorded .badArgument s))
    ∧ (v.toNat < 8 → s.stack = [] → exec (.nendWrite v) s = .next (recorded .endEmpty s))
    ∧ (v.toNat < 8 → s.stack = top :: rest → top.group.val ≠ v.toNat →
        exec (.nendWrite v) s = .next (recorded .endMismatch s))
    ∧ (s.stack = top :: rest → top.group.val = v.toNat →
        exec (.nendWrite v) s = .next { s with stack := rest })
    ∧ readRegister 0x14 s = 0

-- The laws that every step keeps

/-- The state after reset meets every law below. -/
def Obligations.ResetMeetsEveryLaw : Prop :=
  MemoriesCanonical State.reset ∧ AccountingBounded State.reset ∧ StackLegal State.reset
  ∧ SelectsDistinct State.reset ∧ LiveWithinLimit State.reset ∧ RunsPlaced State.reset
  ∧ ReservationsCounted State.reset ∧ AttachedReserve State.reset ∧ LiveCounted State.reset
  ∧ IdleHasNone State.reset ∧ StepsBelowLimit State.reset ∧ OnTargetsPort State.reset
  ∧ CapturesBounded State.reset ∧ FaultRecordCoherent State.reset
  ∧ FramesCoherent State.reset ∧ ClockWithinTick State.reset

/-- Every step keeps the memories canonical and, with that, no two enabled targets on one port and select
line (R84). -/
def Obligations.StepKeepsMemoriesAndSelects : Prop :=
  ∀ (s t : State), MemoriesCanonical s → SelectsDistinct s → step s = .next t →
    MemoriesCanonical t ∧ SelectsDistinct t

/-- Every step keeps occupancy plus reservations within every quota, every threshold within its quota and
the quotas within the 64 record slots (R105, R128). -/
def Obligations.StepKeepsAccountingBounded : Prop :=
  ∀ (s t : State), AccountingBounded s → step s = .next t → AccountingBounded t

/-- Every step keeps the in-service stack at one of its four contents (R138). -/
def Obligations.StepKeepsStackLegal : Prop :=
  ∀ (s t : State), StackLegal s → step s = .next t → StackLegal t

/-- Every step keeps the captures within the receive length, the fault record coherent and the part-clock
count within the tick period in force (R25, R43, R153, R182). -/
def Obligations.StepKeepsCapturesFaultRecordAndClock : Prop :=
  ∀ (s t : State), step s = .next t →
    (CapturesBounded s → CapturesBounded t) ∧ (FaultRecordCoherent s → FaultRecordCoherent t)
    ∧ (ClockWithinTick s → ClockWithinTick t)

/-- Every step keeps every run slot in exactly one place, the free set, one position of one tier queue, or
one port, and every port's items as its state has them (R37, R38, 5.4). -/
def Obligations.StepKeepsRunsPlaced : Prop :=
  ∀ (s t : State), RunsPlaced s → step s = .next t → RunsPlaced t

/-- Every step keeps every frame that of its run's copy, within its length and its transmit bytes, its clock
at its mode's idle level, a cut frame inside its byte, and the clock target of a port in SHIFTING or
AWAIT that of its run's copy (R86, R91, R93, R101). How far a frame has come is the model's form (log
4). -/
def Obligations.StepKeepsFramesCoherent : Prop :=
  ∀ (s t : State), RunsPlaced s → FramesCoherent s → step s = .next t → FramesCoherent t

/-- Every step keeps the live-run counts equal to the live runs and within the instance limits, and the
completed steps below the step limits (R11, R51). -/
def Obligations.StepKeepsLiveRunsBounded : Prop :=
  ∀ (s t : State), RunsPlaced s → LiveCounted s → LiveWithinLimit s → StepsBelowLimit s →
    step s = .next t → LiveCounted t ∧ LiveWithinLimit t ∧ StepsBelowLimit t

/-- Every step keeps a queue's reservations equal to the runs that hold one in it, and every attached run
with a reservation exactly where its copy's queue is LOSSLESS (R108, R110). -/
def Obligations.StepKeepsReservations : Prop :=
  ∀ (s t : State), RunsPlaced s → ReservationsCounted s → AttachedReserve s → step s = .next t →
    ReservationsCounted t ∧ AttachedReserve t

/-- No step leaves a port IDLE with an eligible run in its queues (R69, R70). -/
def Obligations.StepLeavesNoEligibleRunOnIdlePort : Prop :=
  ∀ (s t : State), RunsPlaced s → AccountingBounded s → IdleHasNone s → step s = .next t →
    IdleHasNone t

/-- Every step keeps every live run on the port of its copy's target, and that target enabled (R26, R82). -/
def Obligations.StepKeepsRunsOnTheirTargetsPort : Prop :=
  ∀ (s t : State), RunsPlaced s → Memory.wf s.targets = true → OnTargetsPort s →
    step s = .next t → OnTargetsPort t
end

