-- ==== Sys2Proof/Laws/State.lean ====
section
/-! SUPPORT. The small lemmas of the register files: what each update leaves, one lemma per field, and what
each accessor reads after each update. -/

namespace Sys2Proof.Machine

variable (s : State)

-- State.setLine

@[simp] theorem State.setLine_mode (n : LineId) (x : Line) : (s.setLine n x).mode = s.mode := rfl
@[simp] theorem State.setLine_trig (n : LineId) (x : Line) : (s.setLine n x).trig = s.trig := rfl
@[simp] theorem State.setLine_desc (n : LineId) (x : Line) : (s.setLine n x).desc = s.desc := rfl
@[simp] theorem State.setLine_pattern (n : LineId) (x : Line) : (s.setLine n x).pattern = s.pattern := rfl
@[simp] theorem State.setLine_targets (n : LineId) (x : Line) : (s.setLine n x).targets = s.targets := rfl
@[simp] theorem State.setLine_runs (n : LineId) (x : Line) : (s.setLine n x).runs = s.runs := rfl
@[simp] theorem State.setLine_ports (n : LineId) (x : Line) : (s.setLine n x).ports = s.ports := rfl
@[simp] theorem State.setLine_queues (n : LineId) (x : Line) : (s.setLine n x).queues = s.queues := rfl
@[simp] theorem State.setLine_groups (n : LineId) (x : Line) : (s.setLine n x).groups = s.groups := rfl
@[simp] theorem State.setLine_nen (n : LineId) (x : Line) : (s.setLine n x).nen = s.nen := rfl
@[simp] theorem State.setLine_nlow (n : LineId) (x : Line) : (s.setLine n x).nlow = s.nlow := rfl
@[simp] theorem State.setLine_stack (n : LineId) (x : Line) : (s.setLine n x).stack = s.stack := rfl
@[simp] theorem State.setLine_claim (n : LineId) (x : Line) : (s.setLine n x).claim = s.claim := rfl
@[simp] theorem State.setLine_irqSample (n : LineId) (x : Line) : (s.setLine n x).irqSample = s.irqSample := rfl
@[simp] theorem State.setLine_tbdiv (n : LineId) (x : Line) : (s.setLine n x).tbdiv = s.tbdiv := rfl
@[simp] theorem State.setLine_tickDiv (n : LineId) (x : Line) : (s.setLine n x).tickDiv = s.tickDiv := rfl
@[simp] theorem State.setLine_clockCount (n : LineId) (x : Line) : (s.setLine n x).clockCount = s.clockCount := rfl
@[simp] theorem State.setLine_timestamp (n : LineId) (x : Line) : (s.setLine n x).timestamp = s.timestamp := rfl
@[simp] theorem State.setLine_tsLatch (n : LineId) (x : Line) : (s.setLine n x).tsLatch = s.tsLatch := rfl
@[simp] theorem State.setLine_timers (n : LineId) (x : Line) : (s.setLine n x).timers = s.timers := rfl
@[simp] theorem State.setLine_tsel (n : LineId) (x : Line) : (s.setLine n x).tsel = s.tsel := rfl
@[simp] theorem State.setLine_tidx (n : LineId) (x : Line) : (s.setLine n x).tidx = s.tidx := rfl
@[simp] theorem State.setLine_rqsel (n : LineId) (x : Line) : (s.setLine n x).rqsel = s.rqsel := rfl
@[simp] theorem State.setLine_headPtr (n : LineId) (x : Line) : (s.setLine n x).headPtr = s.headPtr := rfl
@[simp] theorem State.setLine_commandArg (n : LineId) (x : Line) : (s.setLine n x).commandArg = s.commandArg := rfl
@[simp] theorem State.setLine_fault (n : LineId) (x : Line) : (s.setLine n x).fault = s.fault := rfl
@[simp] theorem State.setLine_laterFaults (n : LineId) (x : Line) : (s.setLine n x).laterFaults = s.laterFaults := rfl
@[simp] theorem State.setLine_dataOut (n : LineId) (x : Line) : (s.setLine n x).dataOut = s.dataOut := rfl
@[simp] theorem State.setLine_raceCount (n : LineId) (x : Line) : (s.setLine n x).raceCount = s.raceCount := rfl
@[simp] theorem State.setLine_pending (n : LineId) (x : Line) : (s.setLine n x).pending = s.pending := rfl
@[simp] theorem State.setLine_trigger (n : LineId) (x : Line) (m : Source) :
    (s.setLine n x).trigger m = s.trigger m := rfl
@[simp] theorem State.setLine_run (n : LineId) (x : Line) (m : Slot) :
    (s.setLine n x).run m = s.run m := rfl
@[simp] theorem State.setLine_port (n : LineId) (x : Line) (m : Port) :
    (s.setLine n x).port m = s.port m := rfl
@[simp] theorem State.setLine_queue (n : LineId) (x : Line) (m : QueueId) :
    (s.setLine n x).queue m = s.queue m := rfl
@[simp] theorem State.setLine_group (n : LineId) (x : Line) (m : GroupId) :
    (s.setLine n x).group m = s.group m := rfl
@[simp] theorem State.setLine_timer (n : LineId) (x : Line) (m : TimerId) :
    (s.setLine n x).timer m = s.timer m := rfl
theorem State.setLine_line (n : LineId) (x : Line) (m : LineId) :
    (s.setLine n x).line m = if m = n then x else s.line m := by
  simp only [State.line, State.setLine, Fin.getElem_fin, Vector.getElem_set, Fin.ext_iff, eq_comm]
@[simp] theorem State.setLine_line_self (n : LineId) (x : Line) : (s.setLine n x).line n = x := by
  simp [State.setLine_line]
theorem State.setLine_line_of_ne {n m : LineId} (h : m ≠ n) (x : Line) :
    (s.setLine n x).line m = s.line m := by
  simp [State.setLine_line, h]
@[simp] theorem State.setLine_setLine (n : LineId) (x y : Line) :
    (s.setLine n x).setLine n y = s.setLine n y := by
  simp [State.setLine]
@[simp] theorem State.setLine_self (n : LineId) : s.setLine n (s.line n) = s := by
  simp [State.setLine, State.line]

-- State.setTrigger

@[simp] theorem State.setTrigger_mode (n : Source) (x : TrigEntry) : (s.setTrigger n x).mode = s.mode := rfl
@[simp] theorem State.setTrigger_lines (n : Source) (x : TrigEntry) : (s.setTrigger n x).lines = s.lines := rfl
@[simp] theorem State.setTrigger_desc (n : Source) (x : TrigEntry) : (s.setTrigger n x).desc = s.desc := rfl
@[simp] theorem State.setTrigger_pattern (n : Source) (x : TrigEntry) : (s.setTrigger n x).pattern = s.pattern := rfl
@[simp] theorem State.setTrigger_targets (n : Source) (x : TrigEntry) : (s.setTrigger n x).targets = s.targets := rfl
@[simp] theorem State.setTrigger_runs (n : Source) (x : TrigEntry) : (s.setTrigger n x).runs = s.runs := rfl
@[simp] theorem State.setTrigger_ports (n : Source) (x : TrigEntry) : (s.setTrigger n x).ports = s.ports := rfl
@[simp] theorem State.setTrigger_queues (n : Source) (x : TrigEntry) : (s.setTrigger n x).queues = s.queues := rfl
@[simp] theorem State.setTrigger_groups (n : Source) (x : TrigEntry) : (s.setTrigger n x).groups = s.groups := rfl
@[simp] theorem State.setTrigger_nen (n : Source) (x : TrigEntry) : (s.setTrigger n x).nen = s.nen := rfl
@[simp] theorem State.setTrigger_nlow (n : Source) (x : TrigEntry) : (s.setTrigger n x).nlow = s.nlow := rfl
@[simp] theorem State.setTrigger_stack (n : Source) (x : TrigEntry) : (s.setTrigger n x).stack = s.stack := rfl
@[simp] theorem State.setTrigger_claim (n : Source) (x : TrigEntry) : (s.setTrigger n x).claim = s.claim := rfl
@[simp] theorem State.setTrigger_irqSample (n : Source) (x : TrigEntry) : (s.setTrigger n x).irqSample = s.irqSample := rfl
@[simp] theorem State.setTrigger_tbdiv (n : Source) (x : TrigEntry) : (s.setTrigger n x).tbdiv = s.tbdiv := rfl
@[simp] theorem State.setTrigger_tickDiv (n : Source) (x : TrigEntry) : (s.setTrigger n x).tickDiv = s.tickDiv := rfl
@[simp] theorem State.setTrigger_clockCount (n : Source) (x : TrigEntry) : (s.setTrigger n x).clockCount = s.clockCount := rfl
@[simp] theorem State.setTrigger_timestamp (n : Source) (x : TrigEntry) : (s.setTrigger n x).timestamp = s.timestamp := rfl
@[simp] theorem State.setTrigger_tsLatch (n : Source) (x : TrigEntry) : (s.setTrigger n x).tsLatch = s.tsLatch := rfl
@[simp] theorem State.setTrigger_timers (n : Source) (x : TrigEntry) : (s.setTrigger n x).timers = s.timers := rfl
@[simp] theorem State.setTrigger_tsel (n : Source) (x : TrigEntry) : (s.setTrigger n x).tsel = s.tsel := rfl
@[simp] theorem State.setTrigger_tidx (n : Source) (x : TrigEntry) : (s.setTrigger n x).tidx = s.tidx := rfl
@[simp] theorem State.setTrigger_rqsel (n : Source) (x : TrigEntry) : (s.setTrigger n x).rqsel = s.rqsel := rfl
@[simp] theorem State.setTrigger_headPtr (n : Source) (x : TrigEntry) : (s.setTrigger n x).headPtr = s.headPtr := rfl
@[simp] theorem State.setTrigger_commandArg (n : Source) (x : TrigEntry) : (s.setTrigger n x).commandArg = s.commandArg := rfl
@[simp] theorem State.setTrigger_fault (n : Source) (x : TrigEntry) : (s.setTrigger n x).fault = s.fault := rfl
@[simp] theorem State.setTrigger_laterFaults (n : Source) (x : TrigEntry) : (s.setTrigger n x).laterFaults = s.laterFaults := rfl
@[simp] theorem State.setTrigger_dataOut (n : Source) (x : TrigEntry) : (s.setTrigger n x).dataOut = s.dataOut := rfl
@[simp] theorem State.setTrigger_raceCount (n : Source) (x : TrigEntry) : (s.setTrigger n x).raceCount = s.raceCount := rfl
@[simp] theorem State.setTrigger_pending (n : Source) (x : TrigEntry) : (s.setTrigger n x).pending = s.pending := rfl
@[simp] theorem State.setTrigger_line (n : Source) (x : TrigEntry) (m : LineId) :
    (s.setTrigger n x).line m = s.line m := rfl
@[simp] theorem State.setTrigger_run (n : Source) (x : TrigEntry) (m : Slot) :
    (s.setTrigger n x).run m = s.run m := rfl
@[simp] theorem State.setTrigger_port (n : Source) (x : TrigEntry) (m : Port) :
    (s.setTrigger n x).port m = s.port m := rfl
@[simp] theorem State.setTrigger_queue (n : Source) (x : TrigEntry) (m : QueueId) :
    (s.setTrigger n x).queue m = s.queue m := rfl
@[simp] theorem State.setTrigger_group (n : Source) (x : TrigEntry) (m : GroupId) :
    (s.setTrigger n x).group m = s.group m := rfl
@[simp] theorem State.setTrigger_timer (n : Source) (x : TrigEntry) (m : TimerId) :
    (s.setTrigger n x).timer m = s.timer m := rfl
theorem State.setTrigger_trigger (n : Source) (x : TrigEntry) (m : Source) :
    (s.setTrigger n x).trigger m = if m = n then x else s.trigger m := by
  simp only [State.trigger, State.setTrigger, Fin.getElem_fin, Vector.getElem_set, Fin.ext_iff, eq_comm]
@[simp] theorem State.setTrigger_trigger_self (n : Source) (x : TrigEntry) : (s.setTrigger n x).trigger n = x := by
  simp [State.setTrigger_trigger]
theorem State.setTrigger_trigger_of_ne {n m : Source} (h : m ≠ n) (x : TrigEntry) :
    (s.setTrigger n x).trigger m = s.trigger m := by
  simp [State.setTrigger_trigger, h]
@[simp] theorem State.setTrigger_setTrigger (n : Source) (x y : TrigEntry) :
    (s.setTrigger n x).setTrigger n y = s.setTrigger n y := by
  simp [State.setTrigger]
@[simp] theorem State.setTrigger_self (n : Source) : s.setTrigger n (s.trigger n) = s := by
  simp [State.setTrigger, State.trigger]

-- State.setRun

@[simp] theorem State.setRun_mode (n : Slot) (x : Run) : (s.setRun n x).mode = s.mode := rfl
@[simp] theorem State.setRun_lines (n : Slot) (x : Run) : (s.setRun n x).lines = s.lines := rfl
@[simp] theorem State.setRun_trig (n : Slot) (x : Run) : (s.setRun n x).trig = s.trig := rfl
@[simp] theorem State.setRun_desc (n : Slot) (x : Run) : (s.setRun n x).desc = s.desc := rfl
@[simp] theorem State.setRun_pattern (n : Slot) (x : Run) : (s.setRun n x).pattern = s.pattern := rfl
@[simp] theorem State.setRun_targets (n : Slot) (x : Run) : (s.setRun n x).targets = s.targets := rfl
@[simp] theorem State.setRun_ports (n : Slot) (x : Run) : (s.setRun n x).ports = s.ports := rfl
@[simp] theorem State.setRun_queues (n : Slot) (x : Run) : (s.setRun n x).queues = s.queues := rfl
@[simp] theorem State.setRun_groups (n : Slot) (x : Run) : (s.setRun n x).groups = s.groups := rfl
@[simp] theorem State.setRun_nen (n : Slot) (x : Run) : (s.setRun n x).nen = s.nen := rfl
@[simp] theorem State.setRun_nlow (n : Slot) (x : Run) : (s.setRun n x).nlow = s.nlow := rfl
@[simp] theorem State.setRun_stack (n : Slot) (x : Run) : (s.setRun n x).stack = s.stack := rfl
@[simp] theorem State.setRun_claim (n : Slot) (x : Run) : (s.setRun n x).claim = s.claim := rfl
@[simp] theorem State.setRun_irqSample (n : Slot) (x : Run) : (s.setRun n x).irqSample = s.irqSample := rfl
@[simp] theorem State.setRun_tbdiv (n : Slot) (x : Run) : (s.setRun n x).tbdiv = s.tbdiv := rfl
@[simp] theorem State.setRun_tickDiv (n : Slot) (x : Run) : (s.setRun n x).tickDiv = s.tickDiv := rfl
@[simp] theorem State.setRun_clockCount (n : Slot) (x : Run) : (s.setRun n x).clockCount = s.clockCount := rfl
@[simp] theorem State.setRun_timestamp (n : Slot) (x : Run) : (s.setRun n x).timestamp = s.timestamp := rfl
@[simp] theorem State.setRun_tsLatch (n : Slot) (x : Run) : (s.setRun n x).tsLatch = s.tsLatch := rfl
@[simp] theorem State.setRun_timers (n : Slot) (x : Run) : (s.setRun n x).timers = s.timers := rfl
@[simp] theorem State.setRun_tsel (n : Slot) (x : Run) : (s.setRun n x).tsel = s.tsel := rfl
@[simp] theorem State.setRun_tidx (n : Slot) (x : Run) : (s.setRun n x).tidx = s.tidx := rfl
@[simp] theorem State.setRun_rqsel (n : Slot) (x : Run) : (s.setRun n x).rqsel = s.rqsel := rfl
@[simp] theorem State.setRun_headPtr (n : Slot) (x : Run) : (s.setRun n x).headPtr = s.headPtr := rfl
@[simp] theorem State.setRun_commandArg (n : Slot) (x : Run) : (s.setRun n x).commandArg = s.commandArg := rfl
@[simp] theorem State.setRun_fault (n : Slot) (x : Run) : (s.setRun n x).fault = s.fault := rfl
@[simp] theorem State.setRun_laterFaults (n : Slot) (x : Run) : (s.setRun n x).laterFaults = s.laterFaults := rfl
@[simp] theorem State.setRun_dataOut (n : Slot) (x : Run) : (s.setRun n x).dataOut = s.dataOut := rfl
@[simp] theorem State.setRun_raceCount (n : Slot) (x : Run) : (s.setRun n x).raceCount = s.raceCount := rfl
@[simp] theorem State.setRun_pending (n : Slot) (x : Run) : (s.setRun n x).pending = s.pending := rfl
@[simp] theorem State.setRun_line (n : Slot) (x : Run) (m : LineId) :
    (s.setRun n x).line m = s.line m := rfl
@[simp] theorem State.setRun_trigger (n : Slot) (x : Run) (m : Source) :
    (s.setRun n x).trigger m = s.trigger m := rfl
@[simp] theorem State.setRun_port (n : Slot) (x : Run) (m : Port) :
    (s.setRun n x).port m = s.port m := rfl
@[simp] theorem State.setRun_queue (n : Slot) (x : Run) (m : QueueId) :
    (s.setRun n x).queue m = s.queue m := rfl
@[simp] theorem State.setRun_group (n : Slot) (x : Run) (m : GroupId) :
    (s.setRun n x).group m = s.group m := rfl
@[simp] theorem State.setRun_timer (n : Slot) (x : Run) (m : TimerId) :
    (s.setRun n x).timer m = s.timer m := rfl
theorem State.setRun_run (n : Slot) (x : Run) (m : Slot) :
    (s.setRun n x).run m = if m = n then x else s.run m := by
  simp only [State.run, State.setRun, Fin.getElem_fin, Vector.getElem_set, Fin.ext_iff, eq_comm]
@[simp] theorem State.setRun_run_self (n : Slot) (x : Run) : (s.setRun n x).run n = x := by
  simp [State.setRun_run]
theorem State.setRun_run_of_ne {n m : Slot} (h : m ≠ n) (x : Run) :
    (s.setRun n x).run m = s.run m := by
  simp [State.setRun_run, h]
@[simp] theorem State.setRun_setRun (n : Slot) (x y : Run) :
    (s.setRun n x).setRun n y = s.setRun n y := by
  simp [State.setRun]
@[simp] theorem State.setRun_self (n : Slot) : s.setRun n (s.run n) = s := by
  simp [State.setRun, State.run]

-- State.setPort

@[simp] theorem State.setPort_mode (n : Port) (x : PortRec) : (s.setPort n x).mode = s.mode := rfl
@[simp] theorem State.setPort_lines (n : Port) (x : PortRec) : (s.setPort n x).lines = s.lines := rfl
@[simp] theorem State.setPort_trig (n : Port) (x : PortRec) : (s.setPort n x).trig = s.trig := rfl
@[simp] theorem State.setPort_desc (n : Port) (x : PortRec) : (s.setPort n x).desc = s.desc := rfl
@[simp] theorem State.setPort_pattern (n : Port) (x : PortRec) : (s.setPort n x).pattern = s.pattern := rfl
@[simp] theorem State.setPort_targets (n : Port) (x : PortRec) : (s.setPort n x).targets = s.targets := rfl
@[simp] theorem State.setPort_runs (n : Port) (x : PortRec) : (s.setPort n x).runs = s.runs := rfl
@[simp] theorem State.setPort_queues (n : Port) (x : PortRec) : (s.setPort n x).queues = s.queues := rfl
@[simp] theorem State.setPort_groups (n : Port) (x : PortRec) : (s.setPort n x).groups = s.groups := rfl
@[simp] theorem State.setPort_nen (n : Port) (x : PortRec) : (s.setPort n x).nen = s.nen := rfl
@[simp] theorem State.setPort_nlow (n : Port) (x : PortRec) : (s.setPort n x).nlow = s.nlow := rfl
@[simp] theorem State.setPort_stack (n : Port) (x : PortRec) : (s.setPort n x).stack = s.stack := rfl
@[simp] theorem State.setPort_claim (n : Port) (x : PortRec) : (s.setPort n x).claim = s.claim := rfl
@[simp] theorem State.setPort_irqSample (n : Port) (x : PortRec) : (s.setPort n x).irqSample = s.irqSample := rfl
@[simp] theorem State.setPort_tbdiv (n : Port) (x : PortRec) : (s.setPort n x).tbdiv = s.tbdiv := rfl
@[simp] theorem State.setPort_tickDiv (n : Port) (x : PortRec) : (s.setPort n x).tickDiv = s.tickDiv := rfl
@[simp] theorem State.setPort_clockCount (n : Port) (x : PortRec) : (s.setPort n x).clockCount = s.clockCount := rfl
@[simp] theorem State.setPort_timestamp (n : Port) (x : PortRec) : (s.setPort n x).timestamp = s.timestamp := rfl
@[simp] theorem State.setPort_tsLatch (n : Port) (x : PortRec) : (s.setPort n x).tsLatch = s.tsLatch := rfl
@[simp] theorem State.setPort_timers (n : Port) (x : PortRec) : (s.setPort n x).timers = s.timers := rfl
@[simp] theorem State.setPort_tsel (n : Port) (x : PortRec) : (s.setPort n x).tsel = s.tsel := rfl
@[simp] theorem State.setPort_tidx (n : Port) (x : PortRec) : (s.setPort n x).tidx = s.tidx := rfl
@[simp] theorem State.setPort_rqsel (n : Port) (x : PortRec) : (s.setPort n x).rqsel = s.rqsel := rfl
@[simp] theorem State.setPort_headPtr (n : Port) (x : PortRec) : (s.setPort n x).headPtr = s.headPtr := rfl
@[simp] theorem State.setPort_commandArg (n : Port) (x : PortRec) : (s.setPort n x).commandArg = s.commandArg := rfl
@[simp] theorem State.setPort_fault (n : Port) (x : PortRec) : (s.setPort n x).fault = s.fault := rfl
@[simp] theorem State.setPort_laterFaults (n : Port) (x : PortRec) : (s.setPort n x).laterFaults = s.laterFaults := rfl
@[simp] theorem State.setPort_dataOut (n : Port) (x : PortRec) : (s.setPort n x).dataOut = s.dataOut := rfl
@[simp] theorem State.setPort_raceCount (n : Port) (x : PortRec) : (s.setPort n x).raceCount = s.raceCount := rfl
@[simp] theorem State.setPort_pending (n : Port) (x : PortRec) : (s.setPort n x).pending = s.pending := rfl
@[simp] theorem State.setPort_line (n : Port) (x : PortRec) (m : LineId) :
    (s.setPort n x).line m = s.line m := rfl
@[simp] theorem State.setPort_trigger (n : Port) (x : PortRec) (m : Source) :
    (s.setPort n x).trigger m = s.trigger m := rfl
@[simp] theorem State.setPort_run (n : Port) (x : PortRec) (m : Slot) :
    (s.setPort n x).run m = s.run m := rfl
@[simp] theorem State.setPort_queue (n : Port) (x : PortRec) (m : QueueId) :
    (s.setPort n x).queue m = s.queue m := rfl
@[simp] theorem State.setPort_group (n : Port) (x : PortRec) (m : GroupId) :
    (s.setPort n x).group m = s.group m := rfl
@[simp] theorem State.setPort_timer (n : Port) (x : PortRec) (m : TimerId) :
    (s.setPort n x).timer m = s.timer m := rfl
theorem State.setPort_port (n : Port) (x : PortRec) (m : Port) :
    (s.setPort n x).port m = if m = n then x else s.port m := by
  simp only [State.port, State.setPort, Fin.getElem_fin, Vector.getElem_set, Fin.ext_iff, eq_comm]
@[simp] theorem State.setPort_port_self (n : Port) (x : PortRec) : (s.setPort n x).port n = x := by
  simp [State.setPort_port]
theorem State.setPort_port_of_ne {n m : Port} (h : m ≠ n) (x : PortRec) :
    (s.setPort n x).port m = s.port m := by
  simp [State.setPort_port, h]
@[simp] theorem State.setPort_setPort (n : Port) (x y : PortRec) :
    (s.setPort n x).setPort n y = s.setPort n y := by
  simp [State.setPort]
@[simp] theorem State.setPort_self (n : Port) : s.setPort n (s.port n) = s := by
  simp [State.setPort, State.port]

-- State.setQueue

@[simp] theorem State.setQueue_mode (n : QueueId) (x : Queue) : (s.setQueue n x).mode = s.mode := rfl
@[simp] theorem State.setQueue_lines (n : QueueId) (x : Queue) : (s.setQueue n x).lines = s.lines := rfl
@[simp] theorem State.setQueue_trig (n : QueueId) (x : Queue) : (s.setQueue n x).trig = s.trig := rfl
@[simp] theorem State.setQueue_desc (n : QueueId) (x : Queue) : (s.setQueue n x).desc = s.desc := rfl
@[simp] theorem State.setQueue_pattern (n : QueueId) (x : Queue) : (s.setQueue n x).pattern = s.pattern := rfl
@[simp] theorem State.setQueue_targets (n : QueueId) (x : Queue) : (s.setQueue n x).targets = s.targets := rfl
@[simp] theorem State.setQueue_runs (n : QueueId) (x : Queue) : (s.setQueue n x).runs = s.runs := rfl
@[simp] theorem State.setQueue_ports (n : QueueId) (x : Queue) : (s.setQueue n x).ports = s.ports := rfl
@[simp] theorem State.setQueue_groups (n : QueueId) (x : Queue) : (s.setQueue n x).groups = s.groups := rfl
@[simp] theorem State.setQueue_nen (n : QueueId) (x : Queue) : (s.setQueue n x).nen = s.nen := rfl
@[simp] theorem State.setQueue_nlow (n : QueueId) (x : Queue) : (s.setQueue n x).nlow = s.nlow := rfl
@[simp] theorem State.setQueue_stack (n : QueueId) (x : Queue) : (s.setQueue n x).stack = s.stack := rfl
@[simp] theorem State.setQueue_claim (n : QueueId) (x : Queue) : (s.setQueue n x).claim = s.claim := rfl
@[simp] theorem State.setQueue_irqSample (n : QueueId) (x : Queue) : (s.setQueue n x).irqSample = s.irqSample := rfl
@[simp] theorem State.setQueue_tbdiv (n : QueueId) (x : Queue) : (s.setQueue n x).tbdiv = s.tbdiv := rfl
@[simp] theorem State.setQueue_tickDiv (n : QueueId) (x : Queue) : (s.setQueue n x).tickDiv = s.tickDiv := rfl
@[simp] theorem State.setQueue_clockCount (n : QueueId) (x : Queue) : (s.setQueue n x).clockCount = s.clockCount := rfl
@[simp] theorem State.setQueue_timestamp (n : QueueId) (x : Queue) : (s.setQueue n x).timestamp = s.timestamp := rfl
@[simp] theorem State.setQueue_tsLatch (n : QueueId) (x : Queue) : (s.setQueue n x).tsLatch = s.tsLatch := rfl
@[simp] theorem State.setQueue_timers (n : QueueId) (x : Queue) : (s.setQueue n x).timers = s.timers := rfl
@[simp] theorem State.setQueue_tsel (n : QueueId) (x : Queue) : (s.setQueue n x).tsel = s.tsel := rfl
@[simp] theorem State.setQueue_tidx (n : QueueId) (x : Queue) : (s.setQueue n x).tidx = s.tidx := rfl
@[simp] theorem State.setQueue_rqsel (n : QueueId) (x : Queue) : (s.setQueue n x).rqsel = s.rqsel := rfl
@[simp] theorem State.setQueue_headPtr (n : QueueId) (x : Queue) : (s.setQueue n x).headPtr = s.headPtr := rfl
@[simp] theorem State.setQueue_commandArg (n : QueueId) (x : Queue) : (s.setQueue n x).commandArg = s.commandArg := rfl
@[simp] theorem State.setQueue_fault (n : QueueId) (x : Queue) : (s.setQueue n x).fault = s.fault := rfl
@[simp] theorem State.setQueue_laterFaults (n : QueueId) (x : Queue) : (s.setQueue n x).laterFaults = s.laterFaults := rfl
@[simp] theorem State.setQueue_dataOut (n : QueueId) (x : Queue) : (s.setQueue n x).dataOut = s.dataOut := rfl
@[simp] theorem State.setQueue_raceCount (n : QueueId) (x : Queue) : (s.setQueue n x).raceCount = s.raceCount := rfl
@[simp] theorem State.setQueue_pending (n : QueueId) (x : Queue) : (s.setQueue n x).pending = s.pending := rfl
@[simp] theorem State.setQueue_line (n : QueueId) (x : Queue) (m : LineId) :
    (s.setQueue n x).line m = s.line m := rfl
@[simp] theorem State.setQueue_trigger (n : QueueId) (x : Queue) (m : Source) :
    (s.setQueue n x).trigger m = s.trigger m := rfl
@[simp] theorem State.setQueue_run (n : QueueId) (x : Queue) (m : Slot) :
    (s.setQueue n x).run m = s.run m := rfl
@[simp] theorem State.setQueue_port (n : QueueId) (x : Queue) (m : Port) :
    (s.setQueue n x).port m = s.port m := rfl
@[simp] theorem State.setQueue_group (n : QueueId) (x : Queue) (m : GroupId) :
    (s.setQueue n x).group m = s.group m := rfl
@[simp] theorem State.setQueue_timer (n : QueueId) (x : Queue) (m : TimerId) :
    (s.setQueue n x).timer m = s.timer m := rfl
theorem State.setQueue_queue (n : QueueId) (x : Queue) (m : QueueId) :
    (s.setQueue n x).queue m = if m = n then x else s.queue m := by
  simp only [State.queue, State.setQueue, Fin.getElem_fin, Vector.getElem_set, Fin.ext_iff, eq_comm]
@[simp] theorem State.setQueue_queue_self (n : QueueId) (x : Queue) : (s.setQueue n x).queue n = x := by
  simp [State.setQueue_queue]
theorem State.setQueue_queue_of_ne {n m : QueueId} (h : m ≠ n) (x : Queue) :
    (s.setQueue n x).queue m = s.queue m := by
  simp [State.setQueue_queue, h]
@[simp] theorem State.setQueue_setQueue (n : QueueId) (x y : Queue) :
    (s.setQueue n x).setQueue n y = s.setQueue n y := by
  simp [State.setQueue]
@[simp] theorem State.setQueue_self (n : QueueId) : s.setQueue n (s.queue n) = s := by
  simp [State.setQueue, State.queue]

-- State.setGroup

@[simp] theorem State.setGroup_mode (n : GroupId) (x : Group) : (s.setGroup n x).mode = s.mode := rfl
@[simp] theorem State.setGroup_lines (n : GroupId) (x : Group) : (s.setGroup n x).lines = s.lines := rfl
@[simp] theorem State.setGroup_trig (n : GroupId) (x : Group) : (s.setGroup n x).trig = s.trig := rfl
@[simp] theorem State.setGroup_desc (n : GroupId) (x : Group) : (s.setGroup n x).desc = s.desc := rfl
@[simp] theorem State.setGroup_pattern (n : GroupId) (x : Group) : (s.setGroup n x).pattern = s.pattern := rfl
@[simp] theorem State.setGroup_targets (n : GroupId) (x : Group) : (s.setGroup n x).targets = s.targets := rfl
@[simp] theorem State.setGroup_runs (n : GroupId) (x : Group) : (s.setGroup n x).runs = s.runs := rfl
@[simp] theorem State.setGroup_ports (n : GroupId) (x : Group) : (s.setGroup n x).ports = s.ports := rfl
@[simp] theorem State.setGroup_queues (n : GroupId) (x : Group) : (s.setGroup n x).queues = s.queues := rfl
@[simp] theorem State.setGroup_nen (n : GroupId) (x : Group) : (s.setGroup n x).nen = s.nen := rfl
@[simp] theorem State.setGroup_nlow (n : GroupId) (x : Group) : (s.setGroup n x).nlow = s.nlow := rfl
@[simp] theorem State.setGroup_stack (n : GroupId) (x : Group) : (s.setGroup n x).stack = s.stack := rfl
@[simp] theorem State.setGroup_claim (n : GroupId) (x : Group) : (s.setGroup n x).claim = s.claim := rfl
@[simp] theorem State.setGroup_irqSample (n : GroupId) (x : Group) : (s.setGroup n x).irqSample = s.irqSample := rfl
@[simp] theorem State.setGroup_tbdiv (n : GroupId) (x : Group) : (s.setGroup n x).tbdiv = s.tbdiv := rfl
@[simp] theorem State.setGroup_tickDiv (n : GroupId) (x : Group) : (s.setGroup n x).tickDiv = s.tickDiv := rfl
@[simp] theorem State.setGroup_clockCount (n : GroupId) (x : Group) : (s.setGroup n x).clockCount = s.clockCount := rfl
@[simp] theorem State.setGroup_timestamp (n : GroupId) (x : Group) : (s.setGroup n x).timestamp = s.timestamp := rfl
@[simp] theorem State.setGroup_tsLatch (n : GroupId) (x : Group) : (s.setGroup n x).tsLatch = s.tsLatch := rfl
@[simp] theorem State.setGroup_timers (n : GroupId) (x : Group) : (s.setGroup n x).timers = s.timers := rfl
@[simp] theorem State.setGroup_tsel (n : GroupId) (x : Group) : (s.setGroup n x).tsel = s.tsel := rfl
@[simp] theorem State.setGroup_tidx (n : GroupId) (x : Group) : (s.setGroup n x).tidx = s.tidx := rfl
@[simp] theorem State.setGroup_rqsel (n : GroupId) (x : Group) : (s.setGroup n x).rqsel = s.rqsel := rfl
@[simp] theorem State.setGroup_headPtr (n : GroupId) (x : Group) : (s.setGroup n x).headPtr = s.headPtr := rfl
@[simp] theorem State.setGroup_commandArg (n : GroupId) (x : Group) : (s.setGroup n x).commandArg = s.commandArg := rfl
@[simp] theorem State.setGroup_fault (n : GroupId) (x : Group) : (s.setGroup n x).fault = s.fault := rfl
@[simp] theorem State.setGroup_laterFaults (n : GroupId) (x : Group) : (s.setGroup n x).laterFaults = s.laterFaults := rfl
@[simp] theorem State.setGroup_dataOut (n : GroupId) (x : Group) : (s.setGroup n x).dataOut = s.dataOut := rfl
@[simp] theorem State.setGroup_raceCount (n : GroupId) (x : Group) : (s.setGroup n x).raceCount = s.raceCount := rfl
@[simp] theorem State.setGroup_pending (n : GroupId) (x : Group) : (s.setGroup n x).pending = s.pending := rfl
@[simp] theorem State.setGroup_line (n : GroupId) (x : Group) (m : LineId) :
    (s.setGroup n x).line m = s.line m := rfl
@[simp] theorem State.setGroup_trigger (n : GroupId) (x : Group) (m : Source) :
    (s.setGroup n x).trigger m = s.trigger m := rfl
@[simp] theorem State.setGroup_run (n : GroupId) (x : Group) (m : Slot) :
    (s.setGroup n x).run m = s.run m := rfl
@[simp] theorem State.setGroup_port (n : GroupId) (x : Group) (m : Port) :
    (s.setGroup n x).port m = s.port m := rfl
@[simp] theorem State.setGroup_queue (n : GroupId) (x : Group) (m : QueueId) :
    (s.setGroup n x).queue m = s.queue m := rfl
@[simp] theorem State.setGroup_timer (n : GroupId) (x : Group) (m : TimerId) :
    (s.setGroup n x).timer m = s.timer m := rfl
theorem State.setGroup_group (n : GroupId) (x : Group) (m : GroupId) :
    (s.setGroup n x).group m = if m = n then x else s.group m := by
  simp only [State.group, State.setGroup, Fin.getElem_fin, Vector.getElem_set, Fin.ext_iff, eq_comm]
@[simp] theorem State.setGroup_group_self (n : GroupId) (x : Group) : (s.setGroup n x).group n = x := by
  simp [State.setGroup_group]
theorem State.setGroup_group_of_ne {n m : GroupId} (h : m ≠ n) (x : Group) :
    (s.setGroup n x).group m = s.group m := by
  simp [State.setGroup_group, h]
@[simp] theorem State.setGroup_setGroup (n : GroupId) (x y : Group) :
    (s.setGroup n x).setGroup n y = s.setGroup n y := by
  simp [State.setGroup]
@[simp] theorem State.setGroup_self (n : GroupId) : s.setGroup n (s.group n) = s := by
  simp [State.setGroup, State.group]

-- State.setTimer

@[simp] theorem State.setTimer_mode (n : TimerId) (x : Timer) : (s.setTimer n x).mode = s.mode := rfl
@[simp] theorem State.setTimer_lines (n : TimerId) (x : Timer) : (s.setTimer n x).lines = s.lines := rfl
@[simp] theorem State.setTimer_trig (n : TimerId) (x : Timer) : (s.setTimer n x).trig = s.trig := rfl
@[simp] theorem State.setTimer_desc (n : TimerId) (x : Timer) : (s.setTimer n x).desc = s.desc := rfl
@[simp] theorem State.setTimer_pattern (n : TimerId) (x : Timer) : (s.setTimer n x).pattern = s.pattern := rfl
@[simp] theorem State.setTimer_targets (n : TimerId) (x : Timer) : (s.setTimer n x).targets = s.targets := rfl
@[simp] theorem State.setTimer_runs (n : TimerId) (x : Timer) : (s.setTimer n x).runs = s.runs := rfl
@[simp] theorem State.setTimer_ports (n : TimerId) (x : Timer) : (s.setTimer n x).ports = s.ports := rfl
@[simp] theorem State.setTimer_queues (n : TimerId) (x : Timer) : (s.setTimer n x).queues = s.queues := rfl
@[simp] theorem State.setTimer_groups (n : TimerId) (x : Timer) : (s.setTimer n x).groups = s.groups := rfl
@[simp] theorem State.setTimer_nen (n : TimerId) (x : Timer) : (s.setTimer n x).nen = s.nen := rfl
@[simp] theorem State.setTimer_nlow (n : TimerId) (x : Timer) : (s.setTimer n x).nlow = s.nlow := rfl
@[simp] theorem State.setTimer_stack (n : TimerId) (x : Timer) : (s.setTimer n x).stack = s.stack := rfl
@[simp] theorem State.setTimer_claim (n : TimerId) (x : Timer) : (s.setTimer n x).claim = s.claim := rfl
@[simp] theorem State.setTimer_irqSample (n : TimerId) (x : Timer) : (s.setTimer n x).irqSample = s.irqSample := rfl
@[simp] theorem State.setTimer_tbdiv (n : TimerId) (x : Timer) : (s.setTimer n x).tbdiv = s.tbdiv := rfl
@[simp] theorem State.setTimer_tickDiv (n : TimerId) (x : Timer) : (s.setTimer n x).tickDiv = s.tickDiv := rfl
@[simp] theorem State.setTimer_clockCount (n : TimerId) (x : Timer) : (s.setTimer n x).clockCount = s.clockCount := rfl
@[simp] theorem State.setTimer_timestamp (n : TimerId) (x : Timer) : (s.setTimer n x).timestamp = s.timestamp := rfl
@[simp] theorem State.setTimer_tsLatch (n : TimerId) (x : Timer) : (s.setTimer n x).tsLatch = s.tsLatch := rfl
@[simp] theorem State.setTimer_tsel (n : TimerId) (x : Timer) : (s.setTimer n x).tsel = s.tsel := rfl
@[simp] theorem State.setTimer_tidx (n : TimerId) (x : Timer) : (s.setTimer n x).tidx = s.tidx := rfl
@[simp] theorem State.setTimer_rqsel (n : TimerId) (x : Timer) : (s.setTimer n x).rqsel = s.rqsel := rfl
@[simp] theorem State.setTimer_headPtr (n : TimerId) (x : Timer) : (s.setTimer n x).headPtr = s.headPtr := rfl
@[simp] theorem State.setTimer_commandArg (n : TimerId) (x : Timer) : (s.setTimer n x).commandArg = s.commandArg := rfl
@[simp] theorem State.setTimer_fault (n : TimerId) (x : Timer) : (s.setTimer n x).fault = s.fault := rfl
@[simp] theorem State.setTimer_laterFaults (n : TimerId) (x : Timer) : (s.setTimer n x).laterFaults = s.laterFaults := rfl
@[simp] theorem State.setTimer_dataOut (n : TimerId) (x : Timer) : (s.setTimer n x).dataOut = s.dataOut := rfl
@[simp] theorem State.setTimer_raceCount (n : TimerId) (x : Timer) : (s.setTimer n x).raceCount = s.raceCount := rfl
@[simp] theorem State.setTimer_pending (n : TimerId) (x : Timer) : (s.setTimer n x).pending = s.pending := rfl
@[simp] theorem State.setTimer_line (n : TimerId) (x : Timer) (m : LineId) :
    (s.setTimer n x).line m = s.line m := rfl
@[simp] theorem State.setTimer_trigger (n : TimerId) (x : Timer) (m : Source) :
    (s.setTimer n x).trigger m = s.trigger m := rfl
@[simp] theorem State.setTimer_run (n : TimerId) (x : Timer) (m : Slot) :
    (s.setTimer n x).run m = s.run m := rfl
@[simp] theorem State.setTimer_port (n : TimerId) (x : Timer) (m : Port) :
    (s.setTimer n x).port m = s.port m := rfl
@[simp] theorem State.setTimer_queue (n : TimerId) (x : Timer) (m : QueueId) :
    (s.setTimer n x).queue m = s.queue m := rfl
@[simp] theorem State.setTimer_group (n : TimerId) (x : Timer) (m : GroupId) :
    (s.setTimer n x).group m = s.group m := rfl
theorem State.setTimer_timer (n : TimerId) (x : Timer) (m : TimerId) :
    (s.setTimer n x).timer m = if m = n then x else s.timer m := by
  simp only [State.timer, State.setTimer, Fin.getElem_fin, Vector.getElem_set, Fin.ext_iff, eq_comm]
@[simp] theorem State.setTimer_timer_self (n : TimerId) (x : Timer) : (s.setTimer n x).timer n = x := by
  simp [State.setTimer_timer]
theorem State.setTimer_timer_of_ne {n m : TimerId} (h : m ≠ n) (x : Timer) :
    (s.setTimer n x).timer m = s.timer m := by
  simp [State.setTimer_timer, h]
@[simp] theorem State.setTimer_setTimer (n : TimerId) (x y : Timer) :
    (s.setTimer n x).setTimer n y = s.setTimer n y := by
  simp [State.setTimer]
@[simp] theorem State.setTimer_self (n : TimerId) : s.setTimer n (s.timer n) = s := by
  simp [State.setTimer, State.timer]

end Sys2Proof.Machine
end

