-- ==== Sys2Proof/Laws/Ops.lean ====
section
/-! SUPPORT. The shared operations of `Machine/Ops.lean`, each with one lemma that says what it does: the
host fault record, what reaches the part, arguments, and open orders. -/

namespace Sys2Proof.Machine

theorem satInc_eq (n : BitVec w) : satInc n = if n = BitVec.allOnes w then n else n + 1 := rfl

theorem satInc_byte (n : Byte) : satInc n = if n = 255 then 255 else n + 1 := by
  unfold satInc
  split <;> simp_all

theorem satInc_nibble (n : BitVec 4) : satInc n = if n = 15 then 15 else n + 1 := by
  unfold satInc
  split <;> simp_all

/-- A refusal is recorded in HFAULT and changes nothing else (09 R173). -/
theorem refuse_eq_recorded (c : FaultCode) (s : State) : refuse c s = recorded c s := by
  unfold refuse recorded
  rw [satInc_nibble]

/-- A host write on a free bus is its effect. -/
theorem hostWrite_of_busFree {s : State} (f : State → State) (h : BusFree s) :
    hostWrite f s = f s := by
  obtain ⟨hm, hc⟩ := h
  rw [hostWrite, if_pos hm, ← hc]

/-- A host write while the part runs ends any open NCLAIM cycle, then has its effect. -/
theorem hostWrite_of_running {s : State} (f : State → State) (h : s.mode = .running) :
    hostWrite f s = f { s with claim := .closed } := by
  rw [hostWrite, if_pos h]

theorem hostWrite_of_not_running {s : State} (f : State → State) (h : s.mode ≠ .running) :
    hostWrite f s = s := by
  rw [hostWrite, if_neg h]

/-- A host read with a side effect, on a free bus, is its effect. -/
theorem hostRead_of_busFree {s : State} (f : State → State) (h : BusFree s) :
    hostRead f s = f s := by
  obtain ⟨hm, hc⟩ := h
  rw [hostRead, if_pos hm, ← hc]

theorem hostRead_of_not_running {s : State} (f : State → State) (h : s.mode ≠ .running) :
    hostRead f s = { s with dataOut := 0 } := by
  rw [hostRead, if_neg h]

theorem whenRunning_of_running {s : State} (f : State → State) (h : s.mode = .running) :
    whenRunning f s = f s := by
  rw [whenRunning, if_pos h]

theorem whenRunning_of_not_running {s : State} (f : State → State) (h : s.mode ≠ .running) :
    whenRunning f s = s := by
  rw [whenRunning, if_neg h]

theorem argOf_of_val {n : Nat} {v : Byte} (i : Fin n) (h : v.toNat = i.val) :
    argOf n v = some i := by
  simp [argOf, h]

theorem argOf_of_ge {n : Nat} {v : Byte} (h : n ≤ v.toNat) : argOf n v = none := by
  simp [argOf, Nat.not_lt.2 h]

/-- A command taken with its argument. -/
theorem withArg_of_val {n : Nat} {s : State} (f : Fin n → State → State) (i : Fin n)
    (h : s.commandArg.toNat = i.val) : withArg n f s = f i s := by
  simp [withArg, argOf_of_val i h]

/-- A command refused for its argument (09 R171). -/
theorem withArg_of_ge {n : Nat} {s : State} (f : Fin n → State → State)
    (h : n ≤ s.commandArg.toNat) : withArg n f s = recorded .badArgument s := by
  simp [withArg, argOf_of_ge h, refuse_eq_recorded]

@[simp] theorem mapAll_getElem {α : Type} {n : Nat} (f : α → α) (v : Vector α n) (i : Fin n) :
    (mapAll f v)[i] = f v[i] := by
  simp [mapAll]

theorem insertAt_perm {α : Type} (k : Nat) (x : α) (l : List α) :
    (insertAt k x l).Perm (x :: l) := by
  induction l generalizing k with
  | nil => cases k <;> exact .refl _
  | cons y l ih =>
    cases k with
    | zero => exact .refl _
    | succ k => exact ((ih k).cons y).trans (.swap x y l)

/-- Every order that `permute` gives is an order of the same elements. -/
theorem permute_perm {α : Type} (k : Nat) (l : List α) : (permute k l).Perm l := by
  induction l generalizing k with
  | nil => exact .refl _
  | cons x l ih => exact (insertAt_perm _ x _).trans ((ih _).cons x)

/-- Every element has one place in the order drawn, and drawing changes nothing but the count of the orders
drawn (01 R1, 04 R71). -/
theorem drawOrder_spec {α : Type} (l : List α) (s : State) :
    (drawOrder l s).1.Perm l
      ∧ ∃ k, (drawOrder l s).2 = { s with raceCount := k } ∧ (l.length ≤ 1 → k = s.raceCount) := by
  unfold drawOrder
  split
  · exact ⟨.refl _, s.raceCount, rfl, fun _ => rfl⟩
  · exact ⟨permute_perm _ _, s.raceCount + 1, rfl, fun h => absurd h ‹_›⟩

theorem drawOrder_of_le_one {α : Type} {l : List α} (s : State) (h : l.length ≤ 1) :
    drawOrder l s = (l, s) := by
  rw [drawOrder, if_pos h]

end Sys2Proof.Machine
end

