-- ==== Sys2Proof/Laws/Queues.lean ====
section
/-! SUPPORT. The result queues' shared operations against the rules' own words (`posted`, `afterPost`): a
posting, a conversion, a return, a request. -/

namespace Sys2Proof.Machine

theorem appendRecord_eq_posted {s : State} {q : QueueId} (rec : Record)
    (h : (s.queue q).hasRoom = true) : appendRecord q rec s = posted s q rec false := by
  have h' : (s.queue q).takes false = true := by
    rw [Queue.takes, Bool.false_or]; exact h
  simp only [appendRecord, posted, Queue.afterPost, h', State.setQueue, Bool.true_and, if_true,
    Nat.sub_zero, Bool.false_eq_true, if_false]
  split <;> rfl

theorem loseRecord_eq_posted {s : State} {q : QueueId} (rec : Record)
    (h : (s.queue q).hasRoom = false) : loseRecord q rec s = posted s q rec false := by
  have h' : (s.queue q).takes false = false := by
    rw [Queue.takes, Bool.false_or]; exact h
  simp only [loseRecord, posted, Queue.afterPost, h', State.setQueue, Bool.false_and,
    Bool.false_eq_true, if_false, satInc_byte]

/-- A record posted without a reservation is appended with room and lost without (06 R111-R113). -/
theorem postFree_eq_posted (q : QueueId) (rec : Record) (s : State) :
    postFree q rec s = posted s q rec false := by
  unfold postFree
  split
  · exact appendRecord_eq_posted rec ‹_›
  · exact loseRecord_eq_posted rec (Bool.eq_false_iff.2 ‹_›)

/-- A conversion appends the record with certainty (06 R108). -/
theorem convert_eq_posted {s : State} {q : QueueId} (rec : Record) (h : 0 < (s.queue q).resv) :
    convert q rec s = posted s q rec true := by
  rw [convert, if_pos h]
  simp only [appendRecord, posted, Queue.afterPost, Queue.takes, State.setQueue_queue_self,
    State.setQueue_setQueue, State.setQueue_rqsel, Bool.true_or, Bool.true_and, if_true]
  split <;> rfl

theorem posted_setRun (s : State) (q : QueueId) (rec : Record) (held : Bool) (n : Slot) (x : Run) :
    posted (s.setRun n x) q rec held = (posted s q rec held).setRun n x := rfl

/-- The record of an attached run whose reservation, if any, stands in its copy's queue: posted there, and
the run holds none afterwards (06 R108, R111). -/
theorem postHeld_eq_posted {s : State} {n : Slot} (rec : Record) (h : HoldsProperly s n) :
    postHeld n rec s =
      (posted s (copyQueue (s.run n).copy) rec (s.run n).resv.isSome).setRun n
        { s.run n with resv := none } := by
  cases hr : (s.run n).resv with
  | none =>
    simp only [postHeld, hr, postFree_eq_posted, Option.isSome_none]
    have : ({ s.run n with resv := none } : Run) = s.run n := by rw [← hr]
    rw [this]
    exact ((posted_setRun s _ rec false n (s.run n)).symm.trans (by simp)).symm
  | some q =>
    obtain ⟨rfl, hq⟩ := h q hr
    simp only [postHeld, hr, Option.isSome_some]
    rw [convert_eq_posted rec (by simpa using hq), posted_setRun]

/-- A returned reservation lowers its queue's count and leaves the run without one (06 R109). -/
theorem returnResv_eq {s : State} {n : Slot} (h : HoldsProperly s n) :
    returnResv n s =
      (s.setQueue (copyQueue (s.run n).copy)
        { s.queue (copyQueue (s.run n).copy) with
          resv := (s.queue (copyQueue (s.run n).copy)).resv
            - (if (s.run n).resv.isSome then 1 else 0) }).setRun n
        { s.run n with resv := none } := by
  cases hr : (s.run n).resv with
  | none =>
    have : ({ s.run n with resv := none } : Run) = s.run n := by rw [← hr]
    simp only [returnResv, hr, this, Option.isSome_none, Bool.false_eq_true, if_false, Nat.sub_zero]
    exact ((congrArg (State.setRun · n (s.run n)) (State.setQueue_self s _)).trans
      (State.setRun_self s n)).symm
  | some q =>
    obtain ⟨rfl, -⟩ := h q hr
    simp only [returnResv, hr]
    rfl

/-- A posting leaves every other queue as it was. -/
theorem posted_queue_of_ne {s : State} {q x : QueueId} (rec : Record) (held : Bool) (h : x ≠ q) :
    (posted s q rec held).queue x = s.queue x :=
  State.setQueue_queue_of_ne s h _

/-- The queue posted to is `afterPost`. -/
@[simp] theorem posted_queue_self (s : State) (q : QueueId) (rec : Record) (held : Bool) :
    (posted s q rec held).queue q = (s.queue q).afterPost rec held :=
  State.setQueue_queue_self s q _

/-- A posting keeps the quota, and occupancy plus reservations within it; with a reservation held, of a
queue that counts one, it leaves their sum as it was (06 R105, R108, R111). -/
theorem Queue.afterPost_bound (Q : Queue) (rec : Record) (held : Bool)
    (hb : Q.occupancy + Q.resv ≤ Q.quota) (hr : held = true → 0 < Q.resv) :
    (Q.afterPost rec held).quota = Q.quota
      ∧ (Q.afterPost rec held).occupancy + (Q.afterPost rec held).resv ≤ Q.quota := by
  unfold Queue.afterPost Queue.takes
  unfold Queue.occupancy at *
  cases held with
  | false =>
    simp only [Bool.false_or, decide_eq_true_eq, Bool.false_eq_true, if_false, Nat.sub_zero]
    split
    · refine ⟨rfl, ?_⟩
      simp only [List.length_append, List.length_singleton]
      omega
    · exact ⟨rfl, hb⟩
  | true =>
    have := hr rfl
    refine ⟨rfl, ?_⟩
    simp only [Bool.true_or, if_true, List.length_append, List.length_singleton]
    omega

end Sys2Proof.Machine
end

