-- ==== Sys2Proof/Laws/Arbiter.lean ====
section
/-! SUPPORT. The arbiter: what a grant does, what a grant decision does, and what the decisions of several
ports after one event can do together (04 R69-R73). -/

namespace Sys2Proof.Machine

/-- A grant is what 04 R70 and R73 say it is. -/
theorem grant_eq_granted (p : Port) (t : Tier) (n : Slot) (contested : Bool) (s : State) :
    grant p t n contested s = granted s p t n contested := by
  have hq : ∀ q : QueueId, s.queues.set q.val s.queues[q.val] = s.queues := by simp
  by_cases h : s.queues[(copyQueue s.runs[n.val].copy).val].policy = .lossless <;> cases t <;>
    cases contested <;> by_cases hc : s.ports[p.val].starveCount = 15 <;>
    simp [grant, granted, leaveQueue, startFrame, takeResv, PortRec.frameStarted, State.setPort,
      State.setRun, State.setQueue, State.run, State.port, State.queue, countAfter, satInc, h, hc, hq]

/-- A granted run stood in the queue of its tier. -/
theorem chooseTier_mem {l c : BitVec 4} {u n : Option Slot} {t : Tier} {k : Slot}
    (h : chooseTier l c u n = some (t, k)) : (t = .urgent ∧ u = some k) ∨ (t = .normal ∧ n = some k) := by
  unfold chooseTier at h
  split at h
  · simp at h
  · simp_all
  · simp_all
  · split at h <;> simp_all

theorem chooseTier_none {l c : BitVec 4} {u n : Option Slot} (h : chooseTier l c u n = none) :
    u = none ∧ n = none := by
  unfold chooseTier at h
  split at h
  · simp
  · simp at h
  · simp at h
  · split at h <;> simp at h

/-- A grant decision is what 04 R70 says it is. -/
theorem grantDecision_eq (p : Port) (s : State) : grantDecision p s = decision s p := by
  by_cases hi : (s.port p).state = .idle
  · simp only [grantDecision, decision, candidate, hi, if_true]
    cases (s.port p).urgent.find? (eligible s) <;> cases (s.port p).normal.find? (eligible s)
    · rfl
    · simp only [chooseTier, grant_eq_granted, Option.isSome_some]
    · simp only [chooseTier, grant_eq_granted, Option.isSome_none]
    · by_cases h : (s.port p).starveLimit ≠ 0 ∧ (s.port p).starveLimit ≤ (s.port p).starveCount
      · simp only [chooseTier, Option.isSome_some, if_pos h, grant_eq_granted]
      · simp only [chooseTier, Option.isSome_some, if_neg h, grant_eq_granted]
  · simp only [grantDecision, decision, hi, if_false]

/-- All that one grant decision can do (04 R69, R70): nothing on a port that is not IDLE; nothing where no
queued run is eligible; else a grant of an eligible run queued on the port. -/
theorem decision_cases (p : Port) (s : State) :
    ((s.port p).state ≠ .idle ∧ decision s p = s)
    ∨ ((s.port p).state = .idle ∧ decision s p = s
        ∧ ∀ n, n ∈ (s.port p).urgent ++ (s.port p).normal → eligible s n = false)
    ∨ ((s.port p).state = .idle ∧ ∃ t n contested, n ∈ (s.port p).urgent ++ (s.port p).normal
        ∧ eligible s n = true ∧ decision s p = granted s p t n contested) := by
  rw [← grantDecision_eq]
  by_cases hi : (s.port p).state = .idle
  · right
    simp only [grantDecision, hi, if_true]
    split
    · next h =>
      obtain ⟨hu, hn⟩ := chooseTier_none h
      simp only [candidate, List.find?_eq_none, Bool.not_eq_true] at hu hn
      left
      exact ⟨trivial, rfl, fun n hn' => (List.mem_append.1 hn').elim (hu n) (hn n)⟩
    · next t k h =>
      right
      refine ⟨trivial, t, k, _, ?_, ?_, grant_eq_granted p t k _ s⟩
      · rcases chooseTier_mem h with ⟨-, h⟩ | ⟨-, h⟩
        · exact List.mem_append_left _ (List.mem_of_find?_eq_some h)
        · exact List.mem_append_right _ (List.mem_of_find?_eq_some h)
      · rcases chooseTier_mem h with ⟨-, h⟩ | ⟨-, h⟩ <;> exact List.find?_some h
  · left
    exact ⟨hi, by simp only [grantDecision, hi, if_false]⟩

-- What a grant leaves

theorem granted_eq (s : State) (p : Port) (t : Tier) (n : Slot) (contested : Bool) :
    granted s p t n contested =
      { s with
        runs := (granted s p t n contested).runs
        ports := (granted s p t n contested).ports
        queues := (granted s p t n contested).queues } := rfl

theorem granted_port_of_ne {s : State} {p x : Port} (t : Tier) (n : Slot) (c : Bool) (h : x ≠ p) :
    (granted s p t n c).port x = s.port x :=
  State.setPort_port_of_ne s h _

theorem granted_port_self (s : State) (p : Port) (t : Tier) (n : Slot) (c : Bool) :
    ((granted s p t n c).port p).state = .shifting
      ∧ ((granted s p t n c).port p).attached = some n := by
  have h : (granted s p t n c).port p = _ := State.setPort_port_self s p _
  rw [h]
  exact ⟨rfl, rfl⟩

theorem granted_run_of_ne {s : State} {n m : Slot} (p : Port) (t : Tier) (c : Bool) (h : m ≠ n) :
    (granted s p t n c).run m = s.run m :=
  State.setRun_run_of_ne s h _

theorem granted_run_self (s : State) (p : Port) (t : Tier) (n : Slot) (c : Bool) :
    (granted s p t n c).run n =
      { s.run n with
        state := .active
        resv := ((granted s p t n c).run n).resv
        capture := [] } := by
  have h : (granted s p t n c).run n = _ := State.setRun_run_self s n _
  rw [h]

theorem granted_queue (s : State) (p : Port) (t : Tier) (n : Slot) (c : Bool) (q : QueueId) :
    (granted s p t n c).queue q =
      if q = copyQueue (s.run n).copy ∧ (s.queue q).policy = .lossless then
        { s.queue q with resv := (s.queue q).resv + 1 }
      else s.queue q := by
  have h : (granted s p t n c).queue q = _ := State.setQueue_queue s (copyQueue (s.run n).copy) _ q
  rw [h]
  by_cases hq : q = copyQueue (s.run n).copy
  · subst hq
    by_cases hl : (s.queue (copyQueue (s.run n).copy)).policy = .lossless <;> simp [hl]
  · simp [hq]

/-- A grant makes no run eligible (04 R71). -/
theorem eligible_granted {s : State} (p : Port) (t : Tier) (n : Slot) (c : Bool) {m : Slot}
    (h : eligible s m = false) : eligible (granted s p t n c) m = false := by
  have hc : ((granted s p t n c).run m).copy = (s.run m).copy := by
    by_cases hm : m = n
    · subst hm; rw [granted_run_self]
    · rw [granted_run_of_ne p t c hm]
  simp only [eligible, hc, granted_queue, Queue.hasRoom, Queue.occupancy] at h ⊢
  split
  · simp_all
    omega
  · exact h

/-- `Decided` without its two clauses about ports not led, with the ports of `done` decided: the invariant
of the decisions made one after the other. -/
def Deciding (led : Port → Bool) (m t : State) (done : List Port) : Prop :=
  t = { m with runs := t.runs, ports := t.ports, queues := t.queues, raceCount := t.raceCount }
  ∧ (∀ p, t.port p = m.port p
      ∨ ((m.port p).state = .idle ∧ led p = true ∧ (t.port p).state = .shifting
          ∧ ∃ n, n ∈ (m.port p).urgent ++ (m.port p).normal ∧ (t.port p).attached = some n
              ∧ (t.run n).state = .active))
  ∧ (∀ p, p ∈ done → (t.port p).state = .idle →
      ∀ n, n ∈ (t.port p).urgent ++ (t.port p).normal → eligible t n = false)
  ∧ (∀ n, t.run n = m.run n
      ∨ (t.run n = { m.run n with state := .active, resv := (t.run n).resv, capture := [] }
          ∧ ∃ p, (m.port p).state = .idle ∧ led p = true ∧ (t.port p).state = .shifting
              ∧ (t.port p).attached = some n
              ∧ n ∈ (m.port p).urgent ++ (m.port p).normal))
  ∧ (∀ q, t.queue q = { m.queue q with resv := (t.queue q).resv }
      ∧ (m.queue q).resv ≤ (t.queue q).resv
      ∧ ((t.queue q).resv = (m.queue q).resv
          ∨ (t.queue q).occupancy + (t.queue q).resv ≤ (t.queue q).quota))

/-- One more decision keeps the invariant. -/
theorem Deciding.step {led : Port → Bool} {m t : State} {done : List Port} {p : Port}
    (h : Deciding led m t done) (hl : led p = true) :
    Deciding led m (decision t p) (p :: done) := by
  obtain ⟨ha, hb, hc, hd, he⟩ := h
  rcases decision_cases p t with ⟨hi, hg⟩ | ⟨-, hg, hn⟩ | ⟨hi, tier, n, c, hmem, hel, hg⟩
  · rw [hg]
    refine ⟨ha, hb, ?_, hd, he⟩
    rintro x hx hxi
    rcases List.mem_cons.1 hx with rfl | hx
    · exact absurd hxi hi
    · exact hc x hx hxi
  · rw [hg]
    refine ⟨ha, hb, ?_, hd, he⟩
    rintro x hx hxi
    rcases List.mem_cons.1 hx with rfl | hx
    · exact hn
    · exact hc x hx hxi
  · have hpm : t.port p = m.port p := (hb p).resolve_right fun h => by simp [hi] at h
    rw [hg]
    refine ⟨?_, fun x => ?_, fun x hx hxi => ?_, fun k => ?_, fun q => ?_⟩
    · rw [granted_eq, ha]
    · by_cases hxp : x = p
      · subst hxp
        right
        refine ⟨hpm ▸ hi, hl, (granted_port_self t x tier n c).1, n, hpm ▸ hmem,
          (granted_port_self t x tier n c).2, ?_⟩
        rw [granted_run_self]
      · rw [granted_port_of_ne tier n c hxp]
        refine (hb x).imp_right fun ⟨h1, h2, h3, k, h4, h5, h6⟩ => ⟨h1, h2, h3, k, h4, h5, ?_⟩
        by_cases hk : k = n
        · subst hk; rw [granted_run_self]
        · rw [granted_run_of_ne p tier c hk]; exact h6
    · have hxp : x ≠ p := by
        rintro rfl
        simp [(granted_port_self t x tier n c).1] at hxi
      rw [granted_port_of_ne tier n c hxp] at hxi ⊢
      exact fun k hk => eligible_granted p tier n c
        (hc x ((List.mem_cons.1 hx).resolve_left hxp) hxi k hk)
    · by_cases hk : k = n
      · subst hk
        right
        refine ⟨?_, p, hpm ▸ hi, hl, (granted_port_self t p tier k c).1,
          (granted_port_self t p tier k c).2, hpm ▸ hmem⟩
        rw [granted_run_self]
        rcases hd k with h | ⟨h, -⟩ <;> rw [h]
      · rw [granted_run_of_ne p tier c hk]
        refine (hd k).imp_right fun ⟨h1, x, h2, h3, h4, h5, h6⟩ => ⟨h1, x, h2, h3, ?_⟩
        have hxp : x ≠ p := by
          rintro rfl
          simp [hi] at h4
        rw [granted_port_of_ne tier n c hxp]
        exact ⟨h4, h5, h6⟩
    · obtain ⟨h1, h2, h3⟩ := he q
      rw [granted_queue]
      split
      · next hq =>
        obtain ⟨rfl, hlq⟩ := hq
        have hroom : (t.queue (copyQueue (t.run n).copy)).hasRoom = true := by
          simpa [eligible, hlq] using hel
        have hroom := of_decide_eq_true hroom
        simp only [Queue.occupancy] at hroom
        refine ⟨by rw [h1], by simp only; omega, .inr ?_⟩
        simp only [Queue.occupancy]
        omega
      · exact ⟨h1, h2, h3⟩

/-- The decisions that one event leads to are what 04 R69-R73 say they are. -/
theorem decideWhere_decided (led : Port → Bool) (m : State) : Decided led m (decideWhere led m) := by
  obtain ⟨hperm, k, hk, hk1⟩ :=
    drawOrder_spec (allPorts.filter fun p => (m.port p).state == .idle && led p) m
  refine ⟨_, k, hperm, fun h => hk1 (hperm.length_eq ▸ h), ?_⟩
  simp only [decideWhere, grantDecision_eq, hk]

/-- All that the decisions of the ports that `led` names can do, whatever their order: grants of runs queued
on IDLE ports, after which no led port that is still IDLE has an eligible run (04 R69-R71). -/
theorem Decided.effects {led : Port → Bool} {m t : State} (h : Decided led m t) :
    t = { m with runs := t.runs, ports := t.ports, queues := t.queues, raceCount := t.raceCount }
    ∧ ((∀ p, (m.port p).state = .idle → led p = false) → t = m)
    ∧ (∀ p, t.port p = m.port p
        ∨ ((m.port p).state = .idle ∧ led p = true ∧ (t.port p).state = .shifting
            ∧ ∃ n, n ∈ (m.port p).urgent ++ (m.port p).normal ∧ (t.port p).attached = some n
                ∧ (t.run n).state = .active))
    ∧ (∀ p, led p = true → (t.port p).state = .idle →
        ∀ n, n ∈ (t.port p).urgent ++ (t.port p).normal → eligible t n = false)
    ∧ (∀ n, t.run n = m.run n
        ∨ (t.run n = { m.run n with state := .active, resv := (t.run n).resv, capture := [] }
            ∧ ∃ p, (m.port p).state = .idle ∧ led p = true ∧ (t.port p).attached = some n
                ∧ n ∈ (m.port p).urgent ++ (m.port p).normal))
    ∧ (∀ q, t.queue q = { m.queue q with resv := (t.queue q).resv }
        ∧ (m.queue q).resv ≤ (t.queue q).resv
        ∧ ((t.queue q).resv = (m.queue q).resv
            ∨ (t.queue q).occupancy + (t.queue q).resv ≤ (t.queue q).quota)) := by
  obtain ⟨l, k, hperm, hk, rfl⟩ := h
  have hmem : ∀ p, p ∈ l ↔ (m.port p).state = .idle ∧ led p = true := by
    intro p
    rw [hperm.mem_iff]
    simp [allPorts]
  have hfold : ∀ (l : List Port) (t : State) (done : List Port), Deciding led m t done →
      (∀ p, p ∈ l → led p = true) → Deciding led m (l.foldl decision t) (l.reverse ++ done) := by
    intro l
    induction l with
    | nil => intro t done h _; exact h
    | cons p l ih =>
      intro t done h hl
      have := ih _ (p :: done) (h.step (hl p (by simp))) (fun x hx => hl x (by simp [hx]))
      simpa using this
  have h0 : Deciding led m { m with raceCount := k } [] :=
    ⟨rfl, fun _ => Or.inl rfl, by simp, fun _ => Or.inl rfl,
      fun q => ⟨rfl, le_refl _, Or.inl rfl⟩⟩
  obtain ⟨ha, hb, hc, hd, he⟩ := hfold l _ _ h0 fun p hp => ((hmem p).1 hp).2
  refine ⟨ha, fun hno => ?_, hb, fun p hl hi => ?_, fun n => ?_, he⟩
  · have hnil : l = [] := by
      rw [List.eq_nil_iff_forall_not_mem]
      intro p hp
      have := (hmem p).1 hp
      simp [hno p this.1] at this
    subst hnil
    rw [List.foldl_nil, hk (by simp)]
  · refine hc p ?_ hi
    have hpm := (hb p).resolve_right fun h => by
      have : PortState.idle = .shifting := hi.symm.trans h.2.2.1
      simp at this
    have hi' : (m.port p).state = .idle := by rw [← hpm]; exact hi
    simp only [List.append_nil, List.mem_reverse]
    exact (hmem p).2 ⟨hi', hl⟩
  · exact (hd n).imp_right fun ⟨h1, p, h2, h3, _, h5, h6⟩ => ⟨h1, p, h2, h3, h5, h6⟩

end Sys2Proof.Machine
end

