-- ==== Sys2Proof/Laws/Memory.lean ====
section
/-! SUPPORT. The addressed memories: a write keeps the canonical form, the byte written reads back, and
every other byte reads as before. -/

namespace Sys2Proof.Machine

theorem Memory.wfAbove_cons (lo : Option Nat) (a : Nat) (b : Byte) (m : Mem) :
    Memory.wfAbove lo ((a, b) :: m) = true ↔
      (∀ l, lo = some l → l < a) ∧ b ≠ memUnlisted ∧ Memory.wfAbove (some a) m = true := by
  cases lo <;> simp [Memory.wfAbove, and_assoc]

theorem Memory.wfAbove_weaken {lo lo' : Option Nat} {m : Mem}
    (h : ∀ l, lo' = some l → ∃ k, lo = some k ∧ l ≤ k) (hm : Memory.wfAbove lo m = true) :
    Memory.wfAbove lo' m = true := by
  cases m with
  | nil => rfl
  | cons c m =>
    obtain ⟨a, b⟩ := c
    rw [Memory.wfAbove_cons] at hm ⊢
    refine ⟨fun l hl => ?_, hm.2⟩
    obtain ⟨k, hk, hlk⟩ := h l hl
    exact lt_of_le_of_lt hlk (hm.1 k hk)

/-- A write above the bound keeps the form above the bound. -/
theorem memWrite_wfAbove {lo : Option Nat} {m : Mem} {x : Nat} (v : Byte)
    (hx : ∀ l, lo = some l → l < x) (hm : Memory.wfAbove lo m = true) :
    Memory.wfAbove lo (memWrite m x v) = true := by
  induction m generalizing lo with
  | nil =>
    unfold memWrite
    split
    · rfl
    · rw [Memory.wfAbove_cons]
      exact ⟨hx, ‹_›, rfl⟩
  | cons c m ih =>
    obtain ⟨a, b⟩ := c
    have hm' := (Memory.wfAbove_cons lo a b m).1 hm
    unfold memWrite
    split
    · rw [Memory.wfAbove_cons]
      exact ⟨hm'.1, hm'.2.1, ih (by simpa using ‹a < x›) hm'.2.2⟩
    · split
      · subst a
        split
        · exact Memory.wfAbove_weaken (fun l hl => ⟨x, rfl, (hx l hl).le⟩) hm'.2.2
        · rw [Memory.wfAbove_cons]
          exact ⟨hx, ‹_›, hm'.2.2⟩
      · split
        · exact hm
        · rw [Memory.wfAbove_cons, Memory.wfAbove_cons]
          refine ⟨hx, ‹_›, ?_, hm'.2⟩
          rintro l ⟨⟩
          omega

/-- A write keeps the canonical form. -/
theorem memWrite_wf {m : Mem} (x : Nat) (v : Byte) (hm : Memory.wf m = true) :
    Memory.wf (memWrite m x v) = true :=
  memWrite_wfAbove v (by simp) hm

/-- No index at or below the bound is listed. -/
theorem memRead_of_wfAbove {l x : Nat} {m : Mem} (hm : Memory.wfAbove (some l) m = true)
    (hx : x ≤ l) : memRead m x = memUnlisted := by
  induction m generalizing l with
  | nil => rfl
  | cons c m ih =>
    obtain ⟨a, b⟩ := c
    rw [Memory.wfAbove_cons] at hm
    have ha : l < a := hm.1 l rfl
    have : a ≠ x := by omega
    simp only [memRead, this, if_false]
    exact ih hm.2.2 (by omega)

/-- The spec of a write, in any memory whose entries rise: the byte written reads back, every other byte
reads as before. -/
theorem memRead_memWrite {lo : Option Nat} {m : Mem} (x y : Nat) (v : Byte)
    (hm : Memory.wfAbove lo m = true) :
    memRead (memWrite m x v) y = if y = x then v else memRead m y := by
  induction m generalizing lo with
  | nil =>
    unfold memWrite
    split
    · subst v; split <;> rfl
    · simp only [memRead, eq_comm]
  | cons c m ih =>
    obtain ⟨a, b⟩ := c
    rw [Memory.wfAbove_cons] at hm
    unfold memWrite
    split
    · simp only [memRead]
      rw [ih hm.2.2]
      by_cases hay : a = y
      · have : y ≠ x := by omega
        simp [hay, this]
      · simp [hay]
    · split
      · subst a
        split
        · subst v
          by_cases hy : y = x
          · simp [hy, memRead_of_wfAbove hm.2.2 (le_refl x)]
          · simp [memRead, hy, Ne.symm hy]
        · by_cases hy : y = x
          · simp [memRead, hy]
          · simp [memRead, hy, Ne.symm hy]
      · split
        · subst v
          by_cases hy : y = x
          · subst y
            have h1 : a ≠ x := by omega
            simp [memRead, h1, memRead_of_wfAbove hm.2.2 (show x ≤ a by omega)]
          · simp [hy]
        · by_cases hy : y = x
          · simp [memRead, hy]
          · simp [memRead, hy, Ne.symm hy]

/-- The byte written reads back. -/
theorem memRead_memWrite_self {m : Mem} (x : Nat) (v : Byte) (hm : Memory.wf m = true) :
    memRead (memWrite m x v) x = v := by
  rw [memRead_memWrite x x v hm, if_pos rfl]

/-- Every other byte reads as before. -/
theorem memRead_memWrite_of_ne {m : Mem} {x y : Nat} (v : Byte) (hm : Memory.wf m = true)
    (h : y ≠ x) : memRead (memWrite m x v) y = memRead m y := by
  rw [memRead_memWrite x y v hm, if_neg h]

/-- The memories of the reset state are canonical and read as the start-up clear left them. -/
theorem reset_memories_wf :
    Memory.wf State.reset.desc = true ∧ Memory.wf State.reset.pattern = true
      ∧ Memory.wf State.reset.targets = true := ⟨rfl, rfl, rfl⟩

end Sys2Proof.Machine
end

