-- ==== Sys2Proof/Laws/Runs.lean ====
section
/-! SUPPORT. The shared operations of a run's life against the rules' own words: entering and leaving a
tier queue, frame start, the gap, the freeing of a slot, and what a trigger event can do. -/

namespace Sys2Proof.Machine

theorem enterTail_eq (p : Port) (t : Tier) (n : Slot) (s : State) :
    enterTail p t n s = s.setPort p ((s.port p).tailed t n) := by
  cases t <;> rfl

/-- A frame start is what 05 R91 says, with the run's capture buffer emptied (03 R43). -/
theorem startFrame_eq (p : Port) (n : Slot) (s : State) :
    startFrame p n s = (s.setRun n { s.run n with capture := [] }).setPort p
      ((s.port p).frameStarted s.targets n (s.run n).copy) := rfl

theorem enqueueRun_eq (n : Slot) (s : State) :
    enqueueRun n s =
      (s.setRun n
        { s.run n with
          state := .pending
          port := some (targetPort s.targets (copyTarget (s.run n).copy))
          capture := [] }).setPort (targetPort s.targets (copyTarget (s.run n).copy))
        ((s.port (targetPort s.targets (copyTarget (s.run n).copy))).tailed (s.run n).tier n) := by
  rw [enqueueRun, enterTail_eq]
  rfl

theorem freeSlot_eq (n : Slot) (s : State) :
    freeSlot n s =
      (s.setTrigger (s.run n).source
        { s.trigger (s.run n).source with live := (s.trigger (s.run n).source).live - 1 }).setRun n
        freeRun := rfl

/-- A port without a run enters its gap, and leaves it at once where the gap is 0 (05 R96, R97). -/
theorem enterGap_of_detached {p : Port} {s : State} (h : (s.port p).attached = none) :
    enterGap p s = s.setPort p ((s.port p).gapAfter (gapTicks s p)) := by
  by_cases hg : gapTicks s p = 0 <;>
    simp [enterGap, hg, gapOver, h, leaveGap, PortRec.gapAfter]

/-- A port with an unmarked kept run enters its gap, or starts the kept frame at once where the gap is 0. -/
theorem enterGap_of_kept {p : Port} {n : Slot} {s : State} (h : (s.port p).attached = some n)
    (hm : (s.run n).mark = false) :
    enterGap p s =
      if gapTicks s p = 0 then
        (s.setRun n { s.run n with capture := [] }).setPort p
          ((s.port p).frameStarted s.targets n (s.run n).copy)
      else s.setPort p ((s.port p).keptGap (gapTicks s p)) := by
  by_cases hg : gapTicks s p = 0
  · simp only [enterGap, hg, if_true, gapOver, State.setPort_port_self, h, State.setPort_run, hm,
      Bool.false_eq_true, if_false, startFrame_eq, State.setPort_targets, PortRec.frameStarted]
    simp [State.setRun, State.setPort]
  · simp [enterGap, hg, PortRec.keptGap]

/-- A detached port enters its gap. -/
theorem enterGap_detach (p : Port) (s : State) :
    enterGap p (detach p s) = s.setPort p ((s.port p).gapAfter (gapTicks s p)) := by
  have h : ((detach p s).port p).attached = none := by simp [detach]
  have hg : gapTicks (detach p s) p = gapTicks s p := by simp [gapTicks, detach]
  rw [enterGap_of_detached h, hg]
  simp [detach, PortRec.gapAfter]

theorem miss_eq_missed (n : Source) (cause : MissCause) (s : State) :
    miss n cause s = missed s n cause := by
  simp only [miss, missed, satInc_byte]

/-- All that a trigger event can do (01 R12). -/
theorem triggerEvent_cases (src : Source) (s : State) :
    ((s.trigger src).enable = false ∧ triggerEvent src s = s)
    ∨ ((s.trigger src).enable = true ∧ (s.trigger src).live = (s.trigger src).limit.toNat
        ∧ triggerEvent src s = missed s src .limit)
    ∨ ((s.trigger src).enable = true ∧ (s.trigger src).live ≠ (s.trigger src).limit.toNat
        ∧ (∀ n, (s.run n).state ≠ .free) ∧ triggerEvent src s = missed s src .pool)
    ∨ ((s.trigger src).enable = true ∧ (s.trigger src).live ≠ (s.trigger src).limit.toNat
        ∧ ∃ n, (s.run n).state = .free ∧ (∀ m, m < n → (s.run m).state ≠ .free)
          ∧ triggerEvent src s = startRun src n s) := by
  cases he : (s.trigger src).enable with
  | false => exact .inl ⟨rfl, by simp [triggerEvent, he]⟩
  | true =>
    right
    by_cases hl : (s.trigger src).live = (s.trigger src).limit.toNat
    · exact .inl ⟨rfl, hl, by simp [triggerEvent, he, hl, miss_eq_missed]⟩
    · right
      cases hf : lowestFree s with
      | none =>
        refine .inl ⟨rfl, hl, fun n => ?_, by simp [triggerEvent, he, hl, hf, miss_eq_missed]⟩
        have := List.find?_eq_none.1 hf n (by simp [allSlots])
        simpa using this
      | some n =>
        refine .inr ⟨rfl, hl, n, ?_, fun m hm => ?_, by simp [triggerEvent, he, hl, hf]⟩
        · simpa using List.find?_some hf
        · obtain ⟨-, as, bs, heq, hall⟩ := List.find?_eq_some_iff_append.1 hf
          have hsorted : (as ++ n :: bs).Pairwise (· < ·) := heq ▸ List.pairwise_lt_finRange 32
          have hmem : m ∈ as ++ n :: bs := heq ▸ List.mem_finRange m
          have hmas : m ∈ as := by
            rcases List.mem_append.1 hmem with h | h
            · exact h
            · rcases List.mem_cons.1 h with rfl | h
              · exact absurd hm (lt_irrefl _)
              · have := (List.pairwise_cons.1 (List.pairwise_append.1 hsorted).2.1).1 m h
                exact absurd hm (not_lt.2 this.le)
          simpa using hall m hmas

end Sys2Proof.Machine
end

