-- ==== Sys2Proof/Laws/Serial.lean ====
section
/-! SUPPORT. The frame on the wire against the rules' own numbers (`launchHalf`, `sampleHalf`, `releaseHalf`,
`clocksAt`): its points, when a byte is in progress, and what part clocks without an event do. -/

namespace Sys2Proof.Machine

theorem halfPeriodClocks (d : BitVec 3) : bitPeriodClocks d / 2 = 2 ^ d.toNat := by
  rw [bitPeriodClocks, Nat.pow_succ, Nat.mul_div_cancel _ (by decide)]

/-- Bits are launched where 05 R87 says. -/
theorem launchPoint_eq (m : SerialMode) (b : Nat) : launchPoint m b = launchHalf m b := by
  cases m <;> simp [launchPoint, launchHalf, modeLaunchesAtSelect, edgePoint, launchEdge, leadingEdge,
    modeIdleHigh]

/-- Bits are sampled where 05 R87 and R88 say. -/
theorem samplePoint_eq (m : SerialMode) (d : Bool) (b : Nat) :
    samplePoint m d b = sampleHalf m d b := by
  cases m <;> cases d <;> simp [samplePoint, sampleHalf, launchHalf, edgePoint, sampleEdge, leadingEdge,
    modeIdleHigh, bitVal]

/-- Select is released where 05 R86 and R88 say. -/
theorem endPoint_eq (f : Frame) : f.endPoint = releaseHalf f := by
  unfold Frame.endPoint releaseHalf Frame.bytes
  cases f.mode <;> cases f.delayed <;> simp [modeLaunchesAtSelect]

theorem clocksTo_eq (f : Frame) (h : Nat) : f.clocksTo h = clocksAt f h := by
  rw [Frame.clocksTo, clocksAt, halfPeriodClocks]
  rfl

/-- A frame's point: none before select assertion, then the half bit periods since it. -/
theorem point_eq (f : Frame) :
    f.point = if clocksAt f 0 ≤ f.clocks then some (halvesOf f) else none := by
  have hpos : 0 < 2 ^ f.divider.toNat := Nat.two_pow_pos _
  have h : clocksAt f 0 ≤ f.clocks ↔ ¬f.clocks / 2 ^ f.divider.toNat < bitVal f.leadIn := by
    rw [clocksAt, Nat.add_zero, ← Nat.le_div_iff_mul_le hpos, Nat.not_lt]
    rfl
  simp only [Frame.point, halfPeriodClocks, h, ite_not]
  rfl

theorem byteIndex_eq (f : Frame) : f.byteIndex = halvesOf f / 16 := by
  rw [Frame.byteIndex, point_eq]
  split
  · rfl
  · next h =>
    have hpos : 0 < 2 ^ f.divider.toNat := Nat.two_pow_pos _
    have : halvesOf f = 0 := by
      unfold clocksAt at h
      unfold halvesOf
      rw [Nat.add_zero, ← Nat.le_div_iff_mul_le hpos] at h
      omega
    simp [this]

/-- A byte is in progress exactly where 05 R101 says. -/
theorem byteInProgress_eq (f : Frame) : byteInProgress f = insideByte f := by
  unfold byteInProgress insideByte Frame.bytes
  rw [point_eq]
  by_cases h : clocksAt f 0 ≤ f.clocks
  · rw [if_pos h, decide_eq_true h, Bool.true_and]
    simp only [launchPoint_eq]
  · simp [h]

theorem nextPoint_eq (s : State) (P : PortRec) (f : Frame) : nextPoint s P f = nextHalf s P f := by
  unfold nextPoint nextHalf
  cases P.attached with
  | none => simp only [byteIndex_eq]
  | some n => simp only [launchPoint_eq, samplePoint_eq, endPoint_eq]

/-- Part clocks without an event move a port's frame and nothing else (05 R86). -/
theorem passPort_eq (s : State) (k : Nat) (P : PortRec) : passPort s k P = P.passing s k := by
  have h (c n : Nat) : max c (min (c + k) (n - 1)) = if c + k < n then c + k else max c (n - 1) := by
    split <;> omega
  unfold passPort PortRec.passing
  cases P.frame with
  | none => cases P.state <;> rfl
  | some f => cases P.state <;> first | rfl | simp only [if_true, clocksTo_eq, nextPoint_eq, h]

/-- The spec of part clocks without an event: the frames move on, and IRQ# takes the state of the claimable
set (05 R86, 11 R186). -/
theorem passClocks_port (k : Nat) (s : State) (p : Port) :
    (passClocks k s).port p = (s.port p).passing s k := by
  rw [← passPort_eq]
  exact mapAll_getElem _ _ _

theorem passClocks_eq (k : Nat) (s : State) :
    passClocks k s = { s with ports := (passClocks k s).ports, irqSample := irqState s } := rfl

end Sys2Proof.Machine
end

