-- ==== Sys2Proof/Laws/TimeBase.lean ====
section
/-! SUPPORT. The expiries that are due and the tick against the rules' own words (`Settled`, `Ticked`): the
expiries keep the part running, so that each is its command, and their order is open. -/

namespace Sys2Proof.Machine

-- What an expiry can do keeps the part running

theorem decideWhere_mode (led : Port → Bool) (s : State) : (decideWhere led s).mode = s.mode := by
  rw [(decideWhere_decided led s).effects.1]

@[simp] theorem startFrame_mode (p : Port) (n : Slot) (s : State) : (startFrame p n s).mode = s.mode := rfl

@[simp] theorem enterTail_mode (p : Port) (t : Tier) (n : Slot) (s : State) :
    (enterTail p t n s).mode = s.mode := by cases t <;> rfl

@[simp] theorem postFree_mode (q : QueueId) (rec : Record) (s : State) :
    (postFree q rec s).mode = s.mode := by rw [postFree_eq_posted]; rfl

@[simp] theorem appendRecord_mode (q : QueueId) (rec : Record) (s : State) :
    (appendRecord q rec s).mode = s.mode := by
  simp only [appendRecord]
  split <;> rfl

@[simp] theorem postHeld_mode (n : Slot) (rec : Record) (s : State) :
    (postHeld n rec s).mode = s.mode := by
  simp only [postHeld, convert]
  split
  · split <;> simp
  · simp

@[simp] theorem returnResv_mode (n : Slot) (s : State) : (returnResv n s).mode = s.mode := by
  simp only [returnResv]
  split <;> rfl

@[simp] theorem detach_mode (p : Port) (s : State) : (detach p s).mode = s.mode := rfl
@[simp] theorem freeSlot_mode (n : Slot) (s : State) : (freeSlot n s).mode = s.mode := rfl
@[simp] theorem leaveGap_mode (p : Port) (s : State) : (leaveGap p s).mode = s.mode := rfl

@[simp] theorem gapOver_mode (p : Port) (s : State) : (gapOver p s).mode = s.mode := by
  unfold gapOver
  split
  · simp
  · split <;> simp

@[simp] theorem enterGap_mode (p : Port) (s : State) : (enterGap p s).mode = s.mode := by
  simp only [enterGap]
  split <;> simp

@[simp] theorem endAtStep_mode (p : Port) (n : Slot) (st : Status) (s : State) :
    (endAtStep p n st s).mode = s.mode := by simp [endAtStep, decideWhere_mode]

@[simp] theorem timeoutOutcome_mode (p : Port) (n : Slot) (s : State) :
    (timeoutOutcome p n s).mode = s.mode := by
  unfold timeoutOutcome retryStep failStep
  split
  · simp
  · split
    · simp [decideWhere_mode]
    · split <;> simp

@[simp] theorem triggerEvent_mode (src : Source) (s : State) : (triggerEvent src s).mode = s.mode := by
  rcases triggerEvent_cases src s with ⟨-, h⟩ | ⟨-, -, h⟩ | ⟨-, -, -, h⟩ | ⟨-, -, n, -, -, h⟩ <;> rw [h]
  · rfl
  · rfl
  · unfold startRun
    simp only []
    split
    · simp [decideWhere_mode, enqueueRun, loadRetries, makeCurrent]
    · simp [postInvalid, makeCurrent]

/-- No expiry ends the running of the part. -/
theorem takeExpiry_mode (e : Expiry) (s : State) : (takeExpiry e s).mode = s.mode := by
  cases e with
  | holdOff n => simp only [takeExpiry, holdOffOver]; split <;> rfl
  | timer t => simp only [takeExpiry, timerExpires]; split <;> simp
  | readyTimeout p =>
    simp only [takeExpiry, readyTimesOut]
    split
    · split <;> simp
    · rfl
  | gap p => simp only [takeExpiry, gapExpires]; split <;> simp [decideWhere_mode]

/-- The command that an expiry is. -/
def Expiry.command : Expiry → Instr
  | .holdOff n => .holdOffExpiry n
  | .timer t => .intervalTimerExpiry t
  | .readyTimeout p => .readyTimeoutExpiry p
  | .gap p => .gapExpiry p

theorem takeExpiry_eq {s : State} (e : Expiry) (h : s.mode = .running) :
    takeExpiry e s = afterCommand s e.command := by
  cases e <;> simp [takeExpiry, afterCommand, Expiry.command, exec, execHoldOffExpiry,
    execIntervalTimerExpiry, execReadyTimeoutExpiry, execGapExpiry, whenRunning, h]

theorem foldl_takeExpiry (l : List Expiry) {s : State} (h : s.mode = .running) :
    l.foldl (fun st e => takeExpiry e st) s = (l.map Expiry.command).foldl afterCommand s
      ∧ (l.foldl (fun st e => takeExpiry e st) s).mode = .running := by
  induction l generalizing s with
  | nil => exact ⟨rfl, h⟩
  | cons e l ih =>
    rw [List.foldl_cons, List.map_cons, List.foldl_cons, ← takeExpiry_eq e h]
    exact ih (by rw [takeExpiry_mode, h])

theorem dueExpiries_perm (s : State) : ((dueExpiries s).map Expiry.command).Perm (dueCommands s) := by
  unfold dueExpiries dueCommands
  simp only [List.map_append, List.map_map, Function.comp_def, Expiry.command]
  rw [List.append_assoc, List.append_assoc, List.append_assoc]
  refine .append (.refl _) (.append (.refl _) ?_)
  induction allPorts with
  | nil => exact .refl _
  | cons p l ih =>
    by_cases hi : (s.port p).interval = some 0
    · cases hs : (s.port p).state
      case await =>
        cases ha : (s.port p).attached <;> simp [duePort, hs, hi, ha, Expiry.command, ih]
      case gap =>
        simp only [List.filterMap_cons, duePort, hi, hs, if_true, List.map_cons, Expiry.command]
        refine (ih.cons _).trans ?_
        simpa [hs, hi] using List.perm_middle.symm
      all_goals simp [duePort, hs, hi, ih]
    · have hb : ((s.port p).interval == some 0) = false := by simpa using hi
      simp [duePort, hi, hb, ih]

/-- The spec of the expiries taken together (01 R1; log 5). -/
theorem settleDue_settled {s : State} (h : s.mode = .running) :
    Settled s (settleDue s) ∧ (settleDue s).mode = .running := by
  obtain ⟨hperm, k, hk, hk1⟩ := drawOrder_spec (dueExpiries s) s
  have hm : (drawOrder (dueExpiries s) s).2.mode = .running := by rw [hk]; exact h
  obtain ⟨h1, h2⟩ := foldl_takeExpiry (drawOrder (dueExpiries s) s).1 hm
  refine ⟨⟨_, k, (hperm.map _).trans (dueExpiries_perm s), fun hl => hk1 ?_, ?_⟩, h2⟩
  · rwa [List.length_map, hperm.length_eq] at hl
  · rw [← hk]; exact h1

/-- IRQ state is asserted exactly while some group is claimable (07 R142). -/
theorem irqState_iff (s : State) : irqState s = true ↔ ∃ g, claimable s g = true := by
  simp [irqState, allGroups]

/-- The spec of the tick (08 R153, R154). -/
theorem takeTick_ticked (k : Nat) (u : State) : Ticked k u (takeTick (passClocks k u)) := by
  refine ⟨rfl, irqState_iff u, fun n => ?_, fun p => ?_, fun j => ?_⟩
  · refine (mapAll_getElem tickLine u.lines n).trans ?_
    simp only [tickLine, State.line]
    cases (u.lines[n]).holdOff <;> rfl
  · refine (mapAll_getElem tickPort (passClocks k u).ports p).trans ?_
    rw [show (passClocks k u).ports[p] = (u.port p).passing u k from passClocks_port k u p]
    have hs : ((u.port p).passing u k).state = (u.port p).state := by
      unfold PortRec.passing; split <;> rfl
    have hi : ((u.port p).passing u k).interval = (u.port p).interval := by
      unfold PortRec.passing; split <;> rfl
    simp only [tickPort, hs, hi]
    split
    · cases (u.port p).interval <;> rfl
    · rw [← hi, ← hs]
  · refine (mapAll_getElem tickTimer u.timers j).trans ?_
    change tickTimer (u.timer j) = _
    by_cases h : (u.timer j).running = true ∧ (u.timer j).count ≠ 0
    · rw [tickTimer, if_pos h, if_pos h]
    · rw [tickTimer, if_neg h, if_neg h]

/-- The spec of a part clock (05 R86, 08 R153, 11 R186). -/
theorem partClock_spec {s : State} (h : s.mode = .running) :
    PartClock s (partClock s) ∧ (partClock s).mode = .running := by
  obtain ⟨hs, hm⟩ := settleDue_settled h
  unfold PartClock partClock
  generalize settleDue s = u at hs hm ⊢
  by_cases hlt : u.clockCount < u.tickDiv.toNat
  · have hlt' : (passClocks 1 u).clockCount < (passClocks 1 u).tickDiv.toNat := hlt
    simp only [if_pos hlt']
    refine ⟨⟨u, hs, ?_⟩, hm⟩
    rw [if_pos hlt]
    exact ⟨rfl, irqState_iff u, fun p => passClocks_port 1 u p⟩
  · have hlt' : ¬(passClocks 1 u).clockCount < (passClocks 1 u).tickDiv.toNat := hlt
    simp only [if_neg hlt']
    refine ⟨⟨u, hs, ?_⟩, hm⟩
    rw [if_neg hlt]
    exact takeTick_ticked 1 u

/-- Part clocks pass one after the other, and the part goes on running. -/
theorem whenRunning_afterClocks_succ (k : Nat) {s : State} (h : s.mode = .running) :
    whenRunning (afterClocks (k + 1)) s = whenRunning (afterClocks k) (partClock s) := by
  rw [whenRunning_of_running _ h, whenRunning_of_running _ (partClock_spec h).2, afterClocks]

end Sys2Proof.Machine
end

