-- ==== Sys2Proof/Tests/Slice0.lean ====
section
/-! SUPPORT. Tests: the well-formedness check, the host bus's command words, one step of commands on small
states with expected results from the manual's text and tables, and, for every statement with hypotheses,
a state and operands that meet them. -/

namespace Sys2Proof.Tests

open Sys2Proof.Machine

-- One thread: with many small theorems in flight the memory limit of a checking command is soon met.
set_option Elab.async false

-- Well-formedness (10 R183)

theorem test_wf_refuses_assigned_codes :
    (Instr.badCommand 0x01).wf = false ∧ (Instr.badCommand 0x41).wf = false := by decide
theorem test_wf_accepts_00h : (Instr.badCommand 0x00).wf = true := by decide
theorem test_assigned_code_refused :
    exec (.badCommand 0x30) State.reset = .refused (.assignedCode 0x30) := rfl

-- The host bus (09 R163, 9.2; 10 R183)

theorem test_bus_cycles :
    busCycle false false true = .read ∧ busCycle false true false = .write
      ∧ busCycle false false false = .neither ∧ busCycle true false true = .neither := by decide
theorem test_command_codes :
    busWrite 0x03 0x01 0 = .engineReset ∧ busWrite 0x03 0x12 9 = .portAbort 9
      ∧ busWrite 0x03 0x20 0 = .cancelTrigger ∧ busWrite 0x03 0x41 0 = .timerStop
      ∧ busWrite 0x03 0x00 0 = .badCommand 0x00 := by decide
theorem test_bus_writes :
    busWrite 0x14 0x05 0 = .nendWrite 0x05
      ∧ busWrite 0x17 0x05 0 = .readOnlyWrite .tstampLo 0x05
      ∧ busWrite 0x1F 0x0F 0 = .missLatchClear 2 0x0F
      ∧ busWrite 0x0A 0x01 0 = .registerWrite .tidxHi 0x01 := by decide
theorem test_bus_reads :
    busRead 0x10 = some .rqheadRead ∧ busRead 0x17 = some .tstampLoRead ∧ busRead 0x18 = none := by
  decide
theorem test_no_table_words : decodeTableWord 8 0x01 = none := rfl

-- A small configured state: targets T0 (gap 2) and T1 (gap 0, ready active low) on P0, queue Q0 LOSSY with
-- quota 2, queue Q1 LOSSLESS with quota 2, trigger source 12 (SW0) with first descriptor 3.

/-- A descriptor copy: target and flags, lengths, queue and retries, next, timeout, tag (10 R179). -/
def copyOf (flags tx rx : Byte) (queue retries : Nat) (next : Byte) : DescCopy :=
  #v[flags, tx, rx, 0x10, byteOf (2 * queue + 16 * retries), next, 0x04, 0x77]

/-- The memory that holds a descriptor's bytes from index `i` on, those of them that are not 00h. -/
def storeOf (i : Nat) (c : DescCopy) : Mem :=
  (c.toList.zipIdx.map fun (b, k) => (i + k, b)).filter fun x => x.2 != 0

/-- Entry 12 of the trigger map, enabled. -/
def entry12 : TrigEntry :=
  { resetEntry with enable := true, firstDesc := 3, limit := 2, stepLimit := 0 }

def conf : State :=
  { State.reset with
    targets := [(0, 0x01), (4, 0x02), (8, 0x09), (11, 0x01)]
    desc := storeOf 24 (copyOf 0x10 2 1 0 0 0xFF)
    trig := State.reset.trig.set 12 entry12
    queues := (State.reset.queues.set 0 { resetQueue with quota := 2 }).set 1
      { resetQueue with quota := 2, policy := .lossless } }

/-- A live run of source 12 with copy `c`, in state `st` on port P0. -/
def liveRun (st : RunState) (c : DescCopy) (resv : Option QueueId) : Run :=
  { freeRun with state := st, source := 12, trigTime := 0x1234, desc := 3, copy := c,
                 port := some 0, resv := resv }

/-- A frame of T0 for copy `c` with `sent` bytes begun; a half bit period is one part clock. -/
def frameOf (c : DescCopy) (sent : List Byte) : Frame :=
  { target := 0, select := false, divider := 0, mode := .a, delayed := false, lsbFirst := false,
    fill := 0, leadIn := false, txLen := copyTxLen c, rxLen := copyRxLen c, sent := sent, clocks := 0 }

/-- Port P0 with the run of slot 5 attached, in state `st`. -/
def portWith (st : PortState) (frame : Option Frame) (interval : Option Nat) : PortRec :=
  { resetPort with
    enable := true
    state := st
    attached := some 5
    clockTarget := some 0
    interval := interval
    frame := frame }

/-- `conf` with the run `r` in slot 5 attached to P0 as `P` says, counted in entry 12 and in Q1. -/
def attach (r : Run) (P : PortRec) : State :=
  { conf with
    runs := conf.runs.set 5 r
    ports := conf.ports.set 0 P
    trig := conf.trig.set 12 { entry12 with live := 1 }
    queues := if r.resv = some 1 then conf.queues.set 1 { conf.queues[1] with resv := 1 }
              else conf.queues }

/-- The whole frame of copy `c` has been shifted for the run in slot 5. -/
def shifted (c : DescCopy) (resv : Option QueueId) : State :=
  attach { liveRun .active c resv with capture := List.replicate (copyRxLen c) 0xA5 }
    (portWith .shifting (some (frameOf c (List.replicate (copyTxLen c) 0x11))) none)

/-- The run in slot 5 in its ready wait with `left` ticks left. -/
def inWait (c : DescCopy) (resv : Option QueueId) (left : Nat) : State :=
  attach { liveRun .awaiting c resv with capture := List.replicate (copyRxLen c) 0xA5 }
    (portWith .await none (some left))

/-- The run in slot 5 kept on P0 in the gap, whose last tick has been counted. -/
def inGap (mark : Bool) : State :=
  attach { liveRun .active (copyOf 0x10 2 1 1 0 0xFF) (some 1) with mark := mark }
    (portWith .gap none (some 0))

/-- The run in slot 5 PENDING in the NORMAL queue of P0, in state `st`. -/
def queued (c : DescCopy) (st : PortState) (on : Bool) : State :=
  { conf with
    runs := conf.runs.set 5 (liveRun .pending c none)
    ports := conf.ports.set 0 { resetPort with enable := on, state := st, normal := [5] }
    trig := conf.trig.set 12 { entry12 with live := 1 } }


/-- The outcome is a next state with the property `P`. -/
def after (o : Host.Outcome State Fault Refusal) (P : State → Bool) : Bool :=
  match o with
  | .next t => P t
  | _ => false

-- One step of commands, with results from the manual's text and examples

/-- 09 R175: every register but STATUS reads 00h from the fall of RESET#. -/
theorem test_device_reset_status :
    after (exec .deviceReset conf) (fun t =>
      readRegister 0x02 t == 0x01 && readRegister 0x00 t == 0) = true := by decide
theorem test_reset_release_starts_clear :
    after (exec .resetRelease { conf with mode := .inReset }) (fun t => t.mode == .startUp) = true := by
  decide
/-- 01 R2: the level at the end of start-up is no edge. -/
theorem test_start_up_end_takes_levels :
    after (exec .startUpEnd
      { conf with
        mode := .startUp
        lines := conf.lines.set 3 { pin := true, ref := false, holdOff := some 2 } }) (fun t =>
      (t.line 3).ref && (t.line 3).holdOff == none && readRegister 0x00 t == 0x43
        && tableRead 2 0 t == 0) = true := by decide

/-- 1.10: entry 2 is RISING with hold-off 3 and instance limit 1. -/
def line2 (live : Nat) : State :=
  { conf with
    trig := conf.trig.set 2 { entry12 with limit := 1, holdOffTicks := 3, live := live }
    timestamp := 100 }
/-- 1.10, tick 100. -/
theorem test_edge_admitted :
    after (exec (.triggerLineEdge 2 true) (line2 0)) (fun t =>
      (t.line 2).holdOff == some 3 && (t.trigger 2).live == 1 && (t.run 0).trigTime == 100
        && (t.port 0).normal == [0]) = true := by decide
/-- 1.10, tick 105. -/
theorem test_edge_missed_at_limit :
    after (exec (.triggerLineEdge 2 true) (line2 1)) (fun t =>
      (t.line 2).holdOff == some 3 && (t.trigger 2).missCount == 1
        && (t.trigger 2).lastMiss == .limit && (t.trigger 2).missLatch) = true := by decide
/-- 1.10, ticks 101 to 103: two ticks leave the hold-off running, the third makes it due. -/
theorem test_tick_counts_hold_off :
    after (exec .tick
      { conf with
        timestamp := 0xFFFF
        lines := conf.lines.set 2 { pin := true, ref := true, holdOff := some 1 } }) (fun t =>
      (t.line 2).holdOff == some 0 && t.timestamp == 0) = true := by decide
theorem test_hold_off_expiry :
    after (exec (.holdOffExpiry 2)
      { conf with lines := conf.lines.set 2 { pin := true, ref := true, holdOff := some 0 } })
      (fun t => (t.line 2).holdOff == none) = true := by decide
/-- 1.10, tick 110: 04h written to MISS0 clears latch 2 and no other. -/
theorem test_miss_latch_clear :
    after (exec (.missLatchClear 0 0x04)
      { conf with
        trig := (conf.trig.set 2 { entry12 with missLatch := true }).set 10
          { entry12 with missLatch := true } }) (fun t =>
      !(t.trigger 2).missLatch && (t.trigger 10).missLatch) = true := by decide
theorem test_swtrig_refused_from_8 :
    after (exec (.swtrigWrite 8) conf) (fun t => t.fault == .badArgument) = true := by decide
theorem test_swtrig_admits_and_grants :
    after (exec (.swtrigWrite 0) { conf with
      ports := conf.ports.set 0 { resetPort with enable := true, state := .idle } }) (fun t =>
      (t.run 0).state == .active && (t.run 0).source == 12 && (t.port 0).state == .shifting) = true := by
  decide

/-- 8.7: IT0 PERIODIC with reload 500, IT3 ONE_SHOT with reload 250. -/
def timers87 (c0 c3 : Half) : State :=
  { conf with
    timers := (conf.timers.set 0
      { reload := 500, mode := .periodic, running := true, count := c0 }).set 3
      { reload := 250, mode := .oneShot, running := c3 != 0xFFFF, count := c3 } }
/-- 8.7, 5200.6. -/
theorem test_timer_start :
    after (exec .timerStart { timers87 800 0xFFFF with commandArg := 3 }) (fun t =>
      readRegister 0x1B t == 0x09 && (t.timer 3).count == 250) = true := by decide
/-- 8.7, 6700.4. -/
theorem test_timer_stop :
    after (exec .timerStop (timers87 300 0xFFFF)) (fun t =>
      readRegister 0x1B t == 0 && (t.timer 0).count == 0) = true := by decide
/-- 8.7, 5450 and 6000. -/
theorem test_one_shot_stops :
    after (exec (.intervalTimerExpiry 3) (timers87 550 0)) (fun t =>
      !(t.timer 3).running && (t.timer 3).count == 0) = true := by decide
theorem test_periodic_reloads :
    after (exec (.intervalTimerExpiry 0) (timers87 0 5)) (fun t =>
      (t.timer 0).running && (t.timer 0).count == 500) = true := by decide
/-- 08 R155. -/
theorem test_timestamp_read :
    after (exec .tstampLoRead { conf with timestamp := 0x139F }) (fun t =>
      t.dataOut == 0x9F && readRegister 0x18 t == 0x13) = true := by decide

/-- 11.2, tick 5001: AWAIT 1 with the ready line inactive. -/
theorem test_frame_end_awaits :
    after (exec (.frameEnd 0 false) (shifted (copyOf 0x20 1 0 1 1 0xFF) (some 1))) (fun t =>
      (t.run 5).state == .awaiting && (t.port 0).state == .await
        && (t.port 0).interval == some 4) = true := by decide
/-- 11.2, tick 5027: the OK record converts the reservation and the run ends. -/
theorem test_frame_end_ends_run :
    after (exec (.frameEnd 0 false) (shifted (copyOf 0x10 1 2 1 0 0xFF) (some 1))) (fun t =>
      (t.run 5).state == .free && (t.queue 1).occupancy == 1 && (t.queue 1).resv == 0
        && (t.queue 1).records.map (fun r => (r.status, r.slot, r.data.length))
          == [(.ok, 5, 2)] && (t.port 0).state == .gap && (t.port 0).interval == some 2) = true := by
  decide
/-- 3.11, row 7, with the next copy in LOSSY Q0: the record is posted and KEEP holds. -/
theorem test_ready_arrival_keeps :
    after (exec (.readyArrival 0 true) (inWait (copyOf 0x70 2 1 1 0 0x03) (some 1) 3)) (fun t =>
      (t.run 5).state == .active && (t.run 5).steps == 1 && (t.run 5).resv == none
        && (t.queue 1).occupancy == 1 && (t.port 0).attached == some 5
        && (t.port 0).state == .gap) = true := by decide
/-- 05 R94: a level that is not the active one is no arrival. -/
theorem test_wrong_level_is_no_arrival :
    exec (.readyArrival 0 false) (inWait (copyOf 0x70 2 1 1 0 0x03) (some 1) 3)
      = .next (inWait (copyOf 0x70 2 1 1 0 0x03) (some 1) 3) := rfl
/-- 3.11, row 4. -/
theorem test_timeout_retries :
    after (exec (.readyTimeoutExpiry 0) (inWait (copyOf 0x70 2 1 1 1 0xFF) (some 1) 0 |>.setRun 5
        { liveRun .awaiting (copyOf 0x70 2 1 1 1 0xFF) (some 1) with retries := 1 })) (fun t =>
      (t.run 5).state == .pending && (t.run 5).retries == 0 && (t.queue 1).resv == 0
        && (t.port 0).normal == [5] && (t.port 0).attached == none) = true := by decide
/-- 05 R95, 04 R75: a failed step halts a port with halt-on-error 1. -/
theorem test_timeout_halts :
    after (exec (.readyTimeoutExpiry 0)
      (let s := inWait (copyOf 0x70 2 1 1 0 0xFF) (some 1) 0
       s.setPort 0 { s.port 0 with haltOnError := true })) (fun t =>
      (t.port 0).state == .halted && (t.queue 1).err && readRegister 0x19 t == 0x05) = true := by
  decide
/-- 5.12, row 4, and 03 R58: the kept frame starts, or the marked run ends with no data. -/
theorem test_gap_expiry_starts_kept_frame :
    after (exec (.gapExpiry 0) (inGap false)) (fun t =>
      (t.port 0).state == .shifting && (t.port 0).attached == some 5) = true := by decide
theorem test_gap_expiry_ends_marked_run :
    after (exec (.gapExpiry 0) (inGap true)) (fun t =>
      (t.run 5).state == .free && (t.port 0).state == .idle
        && (t.queue 1).records.map (fun r => (r.status, r.data)) == [(.aborted, [])]) = true := by
  decide
/-- 11.3, row 3: the counter stands at the limit, and the contested grant goes to NORMAL. -/
theorem test_starvation_grant :
    after (exec .portResume
      { conf with
        runs := (conf.runs.set 5 { liveRun .pending (copyOf 0x10 2 1 0 0 0xFF) none with
            tier := .urgent }).set 10 (liveRun .pending (copyOf 0x10 2 1 0 0 0xFF) none)
        ports := conf.ports.set 0
          { resetPort with
            enable := true
            state := .halted
            urgent := [5]
            normal := [10]
            starveLimit := 2
            starveCount := 2 } }) (fun t =>
      (t.port 0).attached == some 10 && (t.port 0).starveCount == 0
        && (t.port 0).urgent == [5]) = true := by decide
/-- 5.12, row 6 and what follows it. -/
theorem test_port_abort_in_await :
    after (exec (.portAbort 0) (inWait (copyOf 0x30 2 1 1 0 0xFF) (some 1) 3)) (fun t =>
      (t.run 5).state == .free && (t.port 0).state == .gap
        && (t.queue 1).records.map (fun r => (r.status, r.data.length)) == [(.aborted, 1)]) = true := by
  decide
theorem test_port_abort_cuts_byte :
    after (exec (.portAbort 0)
      (attach (liveRun .active (copyOf 0x10 3 0 1 0 0xFF) (some 1))
        (portWith .shifting (some { frameOf (copyOf 0 3 0 0 0 0) [0x11, 0x22] with clocks := 20 })
          none))) (fun t =>
      (t.port 0).state == .shifting && (t.port 0).cut == .abort
        && (t.port 0).attached == none) = true := by decide
theorem test_cut_byte_end :
    after (exec (.cutByteEnd 0) { conf with
      ports := conf.ports.set 0
        { portWith .shifting (some (frameOf (copyOf 0 2 0 0 0 0) [0x11])) none with
          attached := none, cut := .abort } })
      (fun t => (t.port 0).state == .gap && (t.port 0).interval == some 2
        && (t.port 0).cut == .none) = true := by decide
/-- 03 R63: the attached run's record, then the queued run's. -/
theorem test_port_reset_order :
    after (exec (.portReset 0)
      (let s := inWait (copyOf 0x30 2 1 0 0 0xFF) none 3
       (s.setPort 0 { s.port 0 with normal := [9] }).setRun 9
         (liveRun .pending (copyOf 0x30 2 1 0 0 0xFF) none))) (fun t =>
      (t.port 0).state == .off && (t.queue 0).records.map (fun r => (r.slot, r.data.length))
        == [(5, 1), (9, 0)]) = true := by decide
/-- 11.6: no PENDING run; the command marks slot 5, whose view byte 0 keeps its state code. -/
theorem test_cancel_marks_attached :
    after (exec .cancelTrigger { inWait (copyOf 0x30 2 1 1 0 0xFF) (some 1) 3 with
        commandArg := 12 }) (fun t =>
      (t.run 5).mark && (t.trigger 12).live == 1 && tableRead 6 60 t == 0x1B) = true := by
  decide +kernel
/-- 02 R33, 05 R89: the next pattern byte, and eight bits most significant first. -/
theorem test_transmit_reads_pattern :
    after (exec (.transmitByteBegins 0)
      { attach (liveRun .active (copyOf 0x10 2 1 0 0 0xFF) none)
          (portWith .shifting (some (frameOf (copyOf 0 2 1 0 0 0) [0x11])) none) with
        pattern := [(0x11, 0x5C)] })
      (fun t => ((t.port 0).frame.map fun f => f.sent) == some [0x11, 0x5C]) = true := by decide
theorem test_receive_msb_first :
    after (exec (.receiveByteSampled 0 0x01)
      (attach (liveRun .active (copyOf 0x10 1 1 0 0 0xFF) none)
        (portWith .shifting (some (frameOf (copyOf 0 1 1 0 0 0) [0x11])) none)))
      (fun t => (t.run 5).capture == [0x80]) = true := by decide

/-- P0 shifts, mode `m`, one pattern byte 81h and one fill byte F0h, `clocks` part clocks after frame
start; a half bit period is one part clock. -/
def onBus (m : SerialMode) (delayed leadIn : Bool) (clocks : Nat) : State :=
  attach (liveRun .active (copyOf 0x10 1 1 0 0 0xFF) none)
    { portWith .shifting (some { frameOf (copyOf 0x10 1 1 0 0 0xFF) [0x81] with
        mode := m, delayed := delayed, leadIn := leadIn, fill := 0xF0, clocks := clocks }) none with
      clkIdle := modeIdleHigh m }
/-- 05 R87, R89: in modes A and C bits are launched at select assertion and the trailing edges; the first
two bit periods, the change to the fill byte, and the end. -/
theorem test_pins_modes_a_and_c :
    [0, 1, 2, 3, 15, 16, 24, 32].map (fun h =>
        (clockPin (onBus .a false false h) 0, dataPin (onBus .a false false h) 0))
      = [(false, true), (true, true), (false, false), (true, false), (true, true), (false, true),
          (false, false), (false, false)]
    ∧ [0, 1, 2].map (fun h =>
        (clockPin (onBus .c false false h) 0, dataPin (onBus .c false false h) 0))
      = [(true, true), (false, true), (true, false)] := by decide
/-- 05 R87, R88: in modes B and D bits are launched on the leading edges; delayed sample adds no edge. -/
theorem test_pins_modes_b_and_d :
    [0, 1, 2, 3, 15, 16, 17, 32].map (fun h =>
        (clockPin (onBus .b true false h) 0, dataPin (onBus .b true false h) 0))
      = [(false, false), (true, true), (false, true), (true, false), (true, true), (false, true),
          (true, true), (false, false)]
    ∧ [0, 1, 2].map (fun h =>
        (clockPin (onBus .d false false h) 0, dataPin (onBus .d false false h) 0))
      = [(true, false), (false, true), (true, true)] := by decide
/-- 05 R88: where the last bit of a one-byte frame is sampled, and where select is released. -/
theorem test_delayed_sample_points :
    [SerialMode.a, .b, .c, .d].map (fun m => (samplePoint m false 7, samplePoint m true 7))
      = [(15, 16), (16, 17), (15, 16), (16, 17)]
    ∧ (frameOf (copyOf 0 1 0 0 0 0) []).endPoint = 16
    ∧ { frameOf (copyOf 0 1 0 0 0 0) [] with mode := .d, delayed := true }.endPoint = 17 := by decide
/-- 05 R91: the clock at its new idle level half a bit period before select and the bit periods. -/
theorem test_lead_in :
    [0, 1, 2].map (fun c => (selectPin (onBus .c false true c) 0 false,
        clockPin (onBus .c false true c) 0, dataPin (onBus .c false true c) 0))
      = [(true, true, false), (false, true, true), (false, false, true)] := by decide
/-- 08 R153: TBDIV 3 makes the tick at the fourth part clock. -/
theorem test_part_clocks_make_ticks :
    after (step { conf with tbdiv := 9, tickDiv := 3, clockCount := 2 }) (fun t =>
      t.clockCount == 3 && t.timestamp == 0) = true
    ∧ after (step { conf with tbdiv := 9, tickDiv := 3, clockCount := 3 }) (fun t =>
      t.clockCount == 0 && t.timestamp == 1 && t.tickDiv == 9) = true := by decide
/-- 08 R159: a PERIODIC timer with reload 1 expires at every tick, though no command takes the expiry. -/
theorem test_reload_1_expires_every_tick :
    after (exec .tick
      { conf with
        timers := conf.timers.set 1 { reload := 1, mode := .periodic, running := true, count := 0 }
        trig := conf.trig.set 9 { entry12 with limit := 1, live := 1 } }) (fun t =>
      (t.timer 1).count == 0 && (t.trigger 9).missCount == 1) = true := by decide
/-- 08 R158: a start of a timer whose expiry is due finds it expired. -/
theorem test_start_after_due_expiry :
    after (exec .timerStart
      { conf with
        timers := conf.timers.set 0 { reload := 7, mode := .oneShot, running := true, count := 0 }
        trig := conf.trig.set 8 { entry12 with limit := 1, live := 1 } }) (fun t =>
      (t.timer 0).count == 7 && (t.timer 0).running && (t.trigger 8).missCount == 1) = true := by
  decide

/-- The record of 10.7. -/
def record107 : Record :=
  { seq := 3, status := .aborted, source := 9, slot := 4, desc := 41, tag := 7, trigTime := 200,
    endTime := 0x013C, data := [0xD0, 0xD1, 0xD2] }
/-- RQSEL selects Q5, of quota 2, which holds `records`. -/
def holding (records : List Record) (ptr : Nat) : State :=
  { conf with
    queues := conf.queues.set 5
      { resetQueue with
        quota := 2
        records := records
        nextSeq := 17
        lostCount := 1
        lost := true
        err := true }
    rqsel := 5
    headPtr := ptr }
/-- 10.7: the record's bytes. -/
theorem test_record_bytes :
    recordBytes record107 = [0x03, 0x03, 0x09, 0x04, 0x29, 0x07, 0xC8, 0x00, 0x3C, 0x01, 0x03,
      0xD0, 0xD1, 0xD2] := by decide
theorem test_rqhead_read :
    after (exec .rqheadRead (holding [record107] 8)) (fun t =>
      t.dataOut == 0x3C && t.headPtr == 9) = true := by decide
/-- 10.7: the fifteenth read of a record of 14 bytes. -/
theorem test_rqhead_read_past_end :
    after (exec .rqheadRead (holding [record107] 14)) (fun t =>
      t.dataOut == 0 && t.headPtr == 14) = true := by decide
/-- 6.10, rows 5 and 6. -/
theorem test_release_head :
    after (exec (.rqreleaseWrite 3) (holding [record107] 9)) (fun t =>
      (t.queue 5).records == [] && t.headPtr == 0 && (t.queue 5).nextSeq == 17) = true := by decide
theorem test_stale_release :
    after (exec (.rqreleaseWrite 2) (holding [record107] 9)) (fun t =>
      (t.queue 5).records == [record107] && t.headPtr == 9 && t.fault == .staleRelease) = true := by
  decide
/-- 6.10, rows 8 and 9. -/
theorem test_flush :
    after (exec .flushQueue { holding [record107, record107] 9 with commandArg := 5 }) (fun t =>
      (t.queue 5).records == [] && (t.queue 5).nextSeq == 17 && (t.queue 5).lostCount == 1
        && (t.queue 5).lost) = true := by decide
theorem test_rqlost_and_rqflags :
    after (exec (.rqlostWrite 0xAA) (holding [] 0)) (fun t => (t.queue 5).lostCount == 0) = true
    ∧ after (exec (.rqflagsWrite 0x02) (holding [] 0)) (fun t =>
        (t.queue 5).lost && !(t.queue 5).err) = true := by decide
theorem test_rqsel_write :
    after (exec (.rqselWrite 5) { holding [record107] 9 with rqsel := 1 }) (fun t =>
      t.headPtr == 0 && readRegister 0x0D t == 1) = true := by decide

/-- 7.10: G0 and G2 HIGH of rank 3, fed by HALT_1 and LOST_4, G6 LOW of rank 0, fed by LEVEL_0. -/
def notify (stack : List StackEntry) : State :=
  { conf with
    groups := ((conf.groups.set 0 { enable := true, tier := .high, rank := 3 }).set 2
      { enable := true, tier := .high, rank := 3 }).set 6
      { enable := true, tier := .low, rank := 0 }
    ports := conf.ports.set 1 { resetPort with haltNotify := true, state := .halted }
    queues := (conf.queues.set 4
      { resetQueue with group := 2, lostEn := true, lost := true }).set 0
      { resetQueue with
        quota := 2
        group := 6
        levelEn := true
        threshold := 1
        records := [record107] }
    nen := true
    nlow := true
    stack := stack }
/-- 7.10, row 6: equal ranks are settled by the lower number. -/
theorem test_nclaim_chooses_g0 :
    after (exec (.nclaimRead .whole) (notify [{ group := 6, tier := .low }])) (fun t =>
      t.dataOut == 0x08 && t.stack.map (fun e => e.group) == [0, 6] && !irqState t) = true := by decide
/-- 11 R186: IRQ# takes the claimable set at a part clock, and a set that has emptied shows at the next one. -/
theorem test_irq_follows_part_clocks :
    irqPin (notify []) = true ∧ after (step (notify [])) (fun t => !irqPin t) = true
    ∧ after (step { notify [] with nen := false, irqSample := true }) irqPin = true := by decide
/-- 11 R186, 08 R153: the part clocks before a PORT_ABORT are part clocks like any other. -/
theorem test_part_clocks_before_abort :
    after (exec (.portAbort 3)
      { conf with irqSample := true, tbdiv := 1, tickDiv := 1, clockCount := 0 }) (fun t =>
      irqPin t && t.timestamp == 1 && t.clockCount == 1) = true := by decide
theorem test_nclaim_without_claimable :
    after (exec (.nclaimRead .whole) { notify [] with nen := false }) (fun t =>
      t.dataOut == 0x80 && t.stack == []) = true := by decide
/-- 7.10, rows 7 and 9. -/
theorem test_nend_mismatch :
    after (exec (.nendWrite 6)
      (notify [{ group := 0, tier := .high }, { group := 6, tier := .low }])) (fun t =>
      t.fault == .endMismatch && t.stack.length == 2) = true := by decide
theorem test_nend_pops :
    after (exec (.nendWrite 0)
      (notify [{ group := 0, tier := .high }, { group := 6, tier := .low }])) (fun t =>
      t.stack.map (fun e => e.group) == [6] && readRegister 0x15 t == 0x0E) = true := by decide
theorem test_nctrl_write :
    after (exec (.nctrlWrite 0x03) { conf with nen := false }) (fun t =>
      t.nen && t.nlow && readRegister 0x12 t == 0x03) = true := by decide

/-- 9.7, row 3: T5's fill byte while its port is IDLE. -/
theorem test_target_write_busy :
    after (exec (.tdataWrite 0xFF)
      { conf with
        tsel := 2
        tidx := 42
        ports := conf.ports.set 2 { resetPort with state := .idle }
        targets := [(40, 0x05)]
        fault := .entryBusy
        laterFaults := 1 }) (fun t =>
      t.targets == [(40, 0x05)] && t.tidx == 43 && readRegister 0x05 t == 0x24) = true := by decide
/-- 9.7, row 4. -/
theorem test_view_is_read_only :
    after (exec (.tdataWrite 0) { conf with tsel := 6, tidx := 0 }) (fun t =>
      t.fault == .readOnly && t.tidx == 1) = true := by decide
/-- 9.7, rows 6 to 9. -/
theorem test_hfault_write :
    after (exec (.hfaultWrite 0x55) { conf with fault := .entryBusy, laterFaults := 8 }) (fun t =>
      readRegister 0x05 t == 0) = true := by decide
theorem test_tsel_refused_from_9 :
    after (exec (.tselWrite 9) { conf with tsel := 6, tidx := 1 }) (fun t =>
      t.tsel == 6 && t.tidx == 1 && t.fault == .badArgument && t.laterFaults == 0) = true := by decide
theorem test_tdata_read_wraps :
    after (exec .tdataRead { conf with tsel := 7, tidx := 15 }) (fun t => t.tidx == 0) = true := by
  decide
theorem test_tdata_read_beyond :
    after (exec .tdataRead { conf with tsel := 7, tidx := 20, dataOut := 0xFF }) (fun t =>
      t.dataOut == 0 && t.tidx == 0 && t.fault == .none) = true := by decide
theorem test_tidx_hi :
    after (exec (.registerWrite .tidxHi 0xFD) { conf with tidx := 0x2A5 }) (fun t =>
      t.tidx == 0x1A5 && readRegister 0x0A t == 0x01) = true := by decide
theorem test_read_only_and_bad_command :
    after (exec (.readOnlyWrite .ident 0x43) conf) (fun t => t.fault == .readOnly) = true
    ∧ after (exec (.badCommand 0x55) conf) (fun t => t.fault == .badCommand) = true := by decide
theorem test_engine_reset :
    after (exec .engineReset (inWait (copyOf 0x30 2 1 1 0 0xFF) (some 1) 3)) (fun t =>
      readRegister 0x1C t == 32 && (t.queue 1).resv == 0 && (t.queue 1).quota == 2
        && !(t.port 0).enable && (t.trigger 12).enable) = true := by decide

/-- 10.7: the bytes of slot 4 in the run pool view. -/
theorem test_view_bytes :
    (List.range 12).map (fun i => tableRead 6 (48 + i)
      { conf with
        runs := conf.runs.set 4
          { freeRun with
            state := .active
            source := 9
            mark := true
            trigTime := 200
            desc := 41
            steps := 1
            port := some 2
            resv := some 1
            copy := #v[0x13, 0, 3, 0, 2, 41, 0, 7] } })
      = [0x5A, 0x09, 0xC8, 0x00, 0x29, 0x01, 0x30, 0x13, 0x29, 0x07, 0x00, 0x00] := by decide

-- For every statement with hypotheses, a state and operands that meet them, clause by clause

/-- `conf` with table `tab` selected at index `i`. -/
def at_ (tab : Fin 9) (i : Nat) : State := { conf with tsel := tab, tidx := BitVec.ofNat 10 i }

theorem test_hyp_step : { conf with pending := [.tick] }.pending = .tick :: [] := by decide
theorem test_hyp_reset_sequence :
    { conf with mode := .inReset }.mode = .inReset ∧ conf.mode ≠ .inReset
      ∧ { conf with mode := .startUp }.mode = .startUp := by decide
theorem test_hyp_reset_ignores :
    (Instr.triggerLineEdge 7 true).wf = true ∧ { conf with mode := .inReset }.mode ≠ .running
      ∧ Instr.triggerLineEdge 7 true ∉ [Instr.deviceReset, .resetRelease, .startUpEnd]
      ∧ Instr.nclaimRead .edge ∉ [Instr.deviceReset, .resetRelease, .startUpEnd] := by decide
/-- The hypothesis of every statement about a host access. -/
theorem test_hyp_bus_free : BusFree conf := by unfold BusFree; decide

theorem test_hyp_refused :
    BusFree (holding [record107] 0)
    ∧ refusalCode conf (.readOnlyWrite .runfree 0xFF) = some .readOnly
    ∧ refusalCode conf (.badCommand 0xFF) = some .badCommand
    ∧ refusalCode conf (.swtrigWrite 8) = some .badArgument
    ∧ refusalCode conf (.tselWrite 9) = some .badArgument
    ∧ refusalCode conf (.rqselWrite 8) = some .badArgument
    ∧ refusalCode conf (.nendWrite 8) = some .badArgument
    ∧ refusalCode conf (.nendWrite 7) = some .endEmpty
    ∧ refusalCode (notify [{ group := 6, tier := .low }]) (.nendWrite 7) = some .endMismatch
    ∧ refusalCode conf (.rqreleaseWrite 0) = some .emptyRelease
    ∧ refusalCode (holding [record107] 0) (.rqreleaseWrite 2) = some .staleRelease
    ∧ refusalCode { conf with commandArg := 4 } (.portReset 0) = some .badArgument
    ∧ refusalCode { conf with commandArg := 4 } .portResume = some .badArgument
    ∧ refusalCode { conf with commandArg := 4 } (.portAbort 0) = some .badArgument
    ∧ refusalCode { conf with commandArg := 20 } .cancelTrigger = some .badArgument
    ∧ refusalCode { conf with commandArg := 8 } .flushQueue = some .badArgument
    ∧ refusalCode { conf with commandArg := 4 } .timerStop = some .badArgument
    ∧ refusalCode { conf with commandArg := 3 } .timerStart = some .badArgument
    ∧ (0x41 : Byte) ∈ assignedCodes := by
  unfold BusFree; decide

theorem test_hyp_selection : (0x08 : Byte).toNat = (8 : Fin 9).val ∧ 9 ≤ (0x09 : Byte).toNat := by decide
theorem test_hyp_tdata_write :
    BusFree (at_ 7 16) ∧ tableSize (at_ 7 16).tsel ≤ (at_ 7 16).tidx.toNat
    ∧ BusFree (at_ 6 383) ∧ (at_ 6 383).tsel = 6 ∧ (at_ 6 383).tidx.toNat < 384 := by
  unfold BusFree; decide
theorem test_hyp_store_and_pattern :
    BusFree (at_ 0 1023) ∧ (at_ 0 1023).tidx.toNat < tableSize (at_ 0 1023).tsel
    ∧ (at_ 0 1023).tsel = 0 ∧ Memory.wf (at_ 0 1023).desc = true
    ∧ BusFree (at_ 1 511) ∧ (at_ 1 511).tidx.toNat < tableSize (at_ 1 511).tsel
    ∧ (at_ 1 511).tsel = 1 ∧ Memory.wf (at_ 1 511).pattern = true := by
  unfold BusFree; decide

/-- P2 and P3 are IDLE and T0, T1 enabled on P0 with select lines 0 and 1. -/
def targetsAt (i : Nat) : State :=
  { at_ 2 i with
    ports := (conf.ports.set 2 { resetPort with state := .idle }).set 3
      { resetPort with normal := [9] } }
/-- Busy by its own port, busy by the port it would move to, an unassigned divider code, another enabled
target's port and select line, and an accepted byte 0 and byte 7. -/
theorem test_hyp_target_writes :
    BusFree (targetsAt 63) ∧ (targetsAt 63).tsel = 2
    ∧ Memory.wf (targetsAt 63).targets = true
    ∧ ((targetsAt 56).tidx.toNat = 8 * (7 : TargetId).val + (0 : Fin 8).val
      ∧ Fin.ofNat 4 ((0x07 : Byte).toNat / 2) ≠ targetPort (targetsAt 56).targets 7
      ∧ ((targetsAt 56).port (Fin.ofNat 4 ((0x07 : Byte).toNat / 2))).offAndEmpty = false)
    ∧ ({ targetsAt 5 with ports := conf.ports.set 0 { resetPort with state := .halted } }.port
        (targetPort (targetsAt 5).targets 0)).offAndEmpty = false
    ∧ (targetsAt 57).tidx.toNat = 8 * (7 : TargetId).val + (1 : Fin 8).val
      ∧ ((targetsAt 57).port (targetPort (targetsAt 57).targets 7)).offAndEmpty = true
      ∧ 6 ≤ (0x06 : Byte).toNat % 8
    ∧ ((0x09 : Byte).getLsbD 0 = true ∧ (1 : TargetId) ≠ 7
      ∧ targetEnable (targetsAt 56).targets 1 = true
      ∧ targetPort (targetsAt 56).targets 1 = Fin.ofNat 4 ((0x09 : Byte).toNat / 2)
      ∧ targetSelect (targetsAt 56).targets 1 = (0x09 : Byte).getLsbD 3)
    ∧ (((targetsAt 56).port (Fin.ofNat 4 ((0x0B : Byte).toNat / 2))).offAndEmpty = true
      ∧ ∀ u : TargetId, u ≠ 7 → targetEnable (targetsAt 56).targets u = true →
        ¬(targetPort (targetsAt 56).targets u = Fin.ofNat 4 ((0x0B : Byte).toNat / 2)
          ∧ targetSelect (targetsAt 56).targets u = (0x0B : Byte).getLsbD 3))
    ∧ (targetsAt 63).tidx.toNat = 8 * (7 : TargetId).val + (7 : Fin 8).val := by
  unfold BusFree; decide

/-- The seven clauses: source 0 stands disabled without live runs at instance limit 0, source 12 enabled. -/
theorem test_hyp_trigger_map :
    BusFree (at_ 3 159) ∧ (at_ 3 159).tsel = 3
    ∧ (at_ 3 159).tidx.toNat = 8 * (19 : Source).val + (7 : Fin 8).val
    ∧ (at_ 3 0).tidx.toNat = 8 * (0 : Source).val + (0 : Fin 8).val
    ∧ ((0x01 : Byte).getLsbD 0 = true ∧ ((at_ 3 0).trigger 0).limit = 0)
    ∧ ¬((0xF2 : Byte).getLsbD 0 = true ∧ ((at_ 3 0).trigger 0).limit = 0)
    ∧ (at_ 3 158).tidx.toNat = 8 * (19 : Source).val + (6 : Fin 8).val
    ∧ (at_ 3 97).tidx.toNat = 8 * (12 : Source).val + (1 : Fin 8).val
      ∧ ((at_ 3 97).trigger 12).enable = true
    ∧ ({ at_ 3 5 with trig := conf.trig.set 0 { resetEntry with live := 1 } }.trigger 0).live ≠ 0
    ∧ (((at_ 3 5).trigger 0).enable = false ∧ ((at_ 3 5).trigger 0).live = 0)
    ∧ 128 ≤ (0x80 : Byte).toNat ∧ (0x05 : Byte).toNat % 8 = 5 ∧ (0x08 : Byte).toNat % 8 = 0
    ∧ (0x31 : Byte).toNat / 16 % 4 = 3 ∧ (0x01 : Byte).toNat % 16 = 1 ∧ (0x07 : Byte).toNat % 16 = 7
    ∧ ¬(((2 : Fin 8) = 1 ∧ 128 ≤ (0xEC : Byte).toNat)
        ∨ ((2 : Fin 8) = 2 ∧ ((0xEC : Byte).toNat % 8 = 0 ∨ 4 < (0xEC : Byte).toNat % 8
            ∨ (0xEC : Byte).toNat / 16 % 4 = 3))
        ∨ ((2 : Fin 8) = 4 ∧ 1 ≤ (0xEC : Byte).toNat % 16 ∧ (0xEC : Byte).toNat % 16 ≤ 7)) := by
  unfold BusFree; decide

/-- Each branch of the quota checks in order: records, a LOSSY queue with an attached run, 65, a sum above
64, a quota below the threshold, and an accepted write at quota 64. -/
theorem test_hyp_quota :
    BusFree (at_ 4 56) ∧ (at_ 4 56).tsel = 4 ∧ (at_ 4 56).tidx.toNat = 8 * (7 : QueueId).val
    ∧ ((holding [record107] 0).queue 5).records ≠ []
    ∧ (((inGap false).queue 1).records = [] ∧ ((inGap false).queue 1).resv ≠ 0)
    ∧ (let s := shifted (copyOf 0x10 2 1 0 0 0xFF) none
       (s.queue 0).records = [] ∧ (s.queue 0).resv = 0 ∧ (s.queue 0).policy = .lossy
       ∧ (0x82 : Byte).getLsbD 7 = true ∧ (s.run 5).state = .active
       ∧ copyQueue (s.run 5).copy = 0)
    ∧ 64 < (0x41 : Byte).toNat % 128
    ∧ 64 < (0x3D : Byte).toNat % 128
        + ((List.finRange 8).map fun x => if x = 7 then 0 else ((at_ 4 56).queue x).quota).sum
    ∧ (0x02 : Byte).toNat % 128
        < ({ conf with queues := conf.queues.set 7 { resetQueue with threshold := 3 } }.queue
            7).threshold.toNat
    ∧ ¬64 < (0xBC : Byte).toNat % 128
        + ((List.finRange 8).map fun x => if x = 7 then 0 else ((at_ 4 56).queue x).quota).sum := by
  unfold BusFree; decide
theorem test_hyp_queue_group_timer :
    BusFree (at_ 4 63) ∧ (at_ 4 57).tsel = 4 ∧ (at_ 4 57).tidx.toNat = 8 * (7 : Fin 8).val + 1
    ∧ (at_ 4 58).tidx.toNat = 8 * (7 : Fin 8).val + 2
    ∧ 3 ≤ (7 : Fin 8).val ∧ (at_ 4 63).tidx.toNat = 8 * (7 : Fin 8).val + (7 : Fin 8).val
    ∧ (at_ 5 28).tsel = 5 ∧ (at_ 5 28).tidx.toNat = 4 * (7 : Fin 8).val
    ∧ (3 : Fin 4) ≠ 0 ∧ (at_ 5 31).tidx.toNat = 4 * (7 : Fin 8).val + (3 : Fin 4).val
    ∧ (at_ 8 12).tsel = 8 ∧ (at_ 8 12).tidx.toNat = 4 * (3 : TimerId).val
    ∧ (at_ 8 13).tidx.toNat = 4 * (3 : TimerId).val + 1
    ∧ (at_ 8 14).tidx.toNat = 4 * (3 : TimerId).val + 2
    ∧ (at_ 8 15).tidx.toNat = 4 * (3 : TimerId).val + 3 := by
  unfold BusFree; decide
theorem test_hyp_port_config :
    BusFree (at_ 7 15) ∧ (at_ 7 12).tsel = 7 ∧ (at_ 7 12).tidx.toNat = 4 * (3 : Port).val
    ∧ (at_ 7 13).tidx.toNat = 4 * (3 : Port).val + 1
    ∧ (at_ 7 14).tidx.toNat = 4 * (3 : Port).val + 2
    ∧ (at_ 7 15).tidx.toNat = 4 * (3 : Port).val + 3 := by
  unfold BusFree; decide
theorem test_hyp_only_host_writes :
    exec (.hfaultWrite 0) conf = .next conf ∧ Instr.hfaultWrite 0 ≠ .startUpEnd
      ∧ ∀ v, Instr.hfaultWrite 0 ≠ .tdataWrite v :=
  ⟨rfl, by decide, fun _ => by simp⟩

theorem test_hyp_line_edges :
    conf.mode = .running ∧ (7 : Source).val = (7 : LineId).val
    ∧ (conf.line 7).ref = false
    ∧ ((conf.line 7).ref ≠ true ∧ (conf.trigger 7).edge = .rising
        ∧ (conf.line 7).holdOff = none ∧ (conf.trigger 7).enable = false)
    ∧ ({ conf with trig := conf.trig.set 7 { resetEntry with edge := .falling } }.trigger 7).edge
        = .falling
    ∧ ({ conf with lines := conf.lines.set 7 { pin := false, ref := false, holdOff := some 0 } }.line
        7).holdOff = some 0 := by decide
/-- The three kinds of event, ignored at a disabled entry, missed at the limit and with a full pool. -/
theorem test_hyp_events :
    (eventOf (.swtrigWrite 7) conf).map Prod.fst = some 19 ∧ (conf.trigger 19).enable = false
    ∧ (eventOf (.triggerLineEdge 2 true) (line2 1)).map Prod.fst = some 2
      ∧ ((line2 1).trigger 2).enable = true
      ∧ ((line2 1).trigger 2).live = ((line2 1).trigger 2).limit.toNat
    ∧ (eventOf (.intervalTimerExpiry 3) (timers87 5 0)).map Prod.fst = some 11
    ∧ (let s := { conf with runs := Vector.replicate 32 (liveRun .pending (copyOf 0 1 0 0 0 0) none) }
       (eventOf (.swtrigWrite 0) s).map Prod.fst = some 12 ∧ (s.trigger 12).enable = true
       ∧ (s.trigger 12).live ≠ (s.trigger 12).limit.toNat
       ∧ ∀ n, (s.run n).state ≠ .free) := by decide +kernel
/-- The lowest FREE slot is the last one, and a copy valid in `conf` and one whose target is disabled. -/
theorem test_hyp_admitted :
    let s := { conf with
      runs := (Vector.replicate 32 (liveRun .pending (copyOf 0 1 0 0 0 0) none)).set 31 freeRun }
    (eventOf (.swtrigWrite 0) s).map Prod.fst = some 12 ∧ (s.trigger 12).enable = true
    ∧ (s.trigger 12).live ≠ (s.trigger 12).limit.toNat
    ∧ (s.run 31).state = .free ∧ (∀ m : Slot, m < 31 → (s.run m).state ≠ .free)
    ∧ copyValid s (fetchCopy s.desc (s.trigger 12).firstDesc) = true
    ∧ (eventOf (.swtrigWrite 0) { s with targets := [] }).map Prod.fst = some 12
    ∧ copyValid { s with targets := [] }
        (fetchCopy s.desc (s.trigger 12).firstDesc) = false := by decide +kernel
/-- A PENDING run of source 12 in slot 5, and an attached one. -/
theorem test_hyp_cancel :
    let s := { queued (copyOf 0x10 2 1 0 0 0xFF) .off false with commandArg := 12 }
    BusFree s ∧ s.commandArg.toNat = (12 : Source).val ∧ RunsPlaced s
    ∧ RunsPlaced (inWait (copyOf 0x30 2 1 1 0 0xFF) (some 1) 3) := by
  unfold BusFree RunsPlaced; decide +kernel

/-- A part clock within the tick period, one that makes the tick, and one that finds the part held. -/
theorem test_hyp_idle_step :
    conf.pending = [] ∧ conf.mode = .running ∧ dueCommands conf = []
    ∧ ({ conf with tickDiv := 1 }.clockCount < { conf with tickDiv := 1 }.tickDiv.toNat)
    ∧ conf.tickDiv.toNat ≤ conf.clockCount
    ∧ { conf with mode := .inReset }.pending = [] ∧ { conf with mode := .inReset }.mode ≠ .running
    ∧ dueCommands (timers87 0 5) = [.intervalTimerExpiry 0] := by decide
theorem test_hyp_counts :
    conf.mode = .running ∧ (3 ≤ 3)
    ∧ ({ conf with lines := conf.lines.set 7 { pin := false, ref := false, holdOff := some 3 } }.line
        7).holdOff = some 3
    ∧ ((inWait (copyOf 0x30 2 1 1 0 0xFF) (some 1) 3).port 0).interval = some 3
    ∧ ((inWait (copyOf 0x30 2 1 1 0 0xFF) (some 1) 3).port 0).state = .await := by decide
theorem test_hyp_timers :
    BusFree (timers87 5 5) ∧ 4 ≤ ({ conf with commandArg := 4 }).commandArg.toNat
    ∧ ({ conf with commandArg := 3 }).commandArg.toNat = (3 : TimerId).val
    ∧ (conf.timer 3).reload = 0 ∧ ((timers87 5 5).timer 3).reload ≠ 0
    ∧ (conf.timer 3).running = false ∧ (conf.timer 3).count = 0
    ∧ ((timers87 0 5).commandArg.toNat = (0 : TimerId).val ∧ ((timers87 0 5).timer 0).running = true
      ∧ ((timers87 0 5).timer 0).count = 0 ∧ BusFree (timers87 0 5)) := by
  unfold BusFree; decide
theorem test_hyp_window :
    conf.mode = .running ∧ conf.stack = []
    ∧ (notify [{ group := 7, tier := .low }]).stack = [{ group := 7, tier := .low }]
    ∧ (notify [{ group := 7, tier := .high }]).stack = [{ group := 7, tier := .high }]
    ∧ (notify [{ group := 1, tier := .high }, { group := 7, tier := .low }]).stack
        = [{ group := 1, tier := .high }, { group := 7, tier := .low }]
    ∧ conf.run 31 = freeRun := by decide
/-- Held; before select assertion; in a bit period, at the last one and after it; before the first launch
of mode B, and at bit 7 of byte 1. -/
theorem test_hyp_pins :
    { conf with mode := .inReset }.mode ≠ .running ∧ (conf.port 0).state ≠ .shifting
    ∧ ((onBus .c false true 0).mode = .running ∧ ((onBus .c false true 0).port 0).state = .shifting
      ∧ ((onBus .c false true 0).port 0).frame.any (fun f => f.clocks < clocksAt f 0) = true)
    ∧ (((onBus .b true false 32).port 0).frame.any fun f =>
        clocksAt f 32 ≤ f.clocks ∧ f.clocks < clocksAt f (32 + 1)
          ∧ 16 * (f.txLen + f.rxLen) ≤ 32) = true
    ∧ (((onBus .b true false 0).port 0).frame.any fun f =>
        0 < 16 * (f.txLen + f.rxLen) ∧ 0 < launchHalf f.mode 0) = true
    ∧ (((onBus .b true false 31).port 0).frame.any fun f =>
        clocksAt f 31 ≤ f.clocks ∧ f.clocks < clocksAt f (31 + 1) ∧ 31 < 16 * (f.txLen + f.rxLen)
          ∧ launchHalf f.mode (8 * 1 + (7 : Fin 8).val) ≤ 31
          ∧ 31 < launchHalf f.mode (8 * 1 + (7 : Fin 8).val + 1)) = true := by decide

/-- A transmit byte that begins, and a receive byte after the last transmit byte has begun. -/
theorem test_hyp_frame_bytes :
    let c := copyOf 0x10 2 1 0 0 0xFF
    let s := attach (liveRun .active c none) (portWith .shifting (some (frameOf c [0x11])) none)
    let s' := attach (liveRun .active c none)
      (portWith .shifting (some (frameOf c [0x11, 0x22])) none)
    s.mode = .running ∧ (s.port 0).state = .shifting ∧ (s.port 0).attached = some 5
    ∧ (s.port 0).frame = some (frameOf c [0x11])
    ∧ (frameOf c [0x11]).sent.length < copyTxLen (s.run 5).copy
    ∧ (s'.port 0).frame = some (frameOf c [0x11, 0x22])
    ∧ (frameOf c [0x11, 0x22]).sent.length = copyTxLen (s'.run 5).copy
    ∧ (s'.run 5).capture.length < copyRxLen (s'.run 5).copy := by decide
theorem test_hyp_frame_end_await :
    let c := copyOf 0x20 1 1 1 1 0xFF
    let s := shifted c (some 1)
    s.mode = .running ∧ (s.port 0).state = .shifting ∧ (s.port 0).attached = some 5
    ∧ (s.port 0).frame = some (frameOf c [0x11])
    ∧ (frameOf c [0x11]).sent.length = copyTxLen (s.run 5).copy
    ∧ (s.run 5).capture.length = copyRxLen (s.run 5).copy
    ∧ copyAwait (s.run 5).copy = true := by decide

/-- A step's end by FRAME_END and by READY_ARRIVAL: a marked run, and one that reaches its step limit. -/
theorem test_hyp_marked_or_limited :
    let s := inWait (copyOf 0x30 2 1 1 0 3) (some 1) 3
    let m := s.setRun 5 { s.run 5 with mark := true }
    let l := s.setTrigger 12 { s.trigger 12 with stepLimit := 1 }
    endsStep (.readyArrival 0 true) 0 5 m = true ∧ HoldsProperly m 5 ∧ (m.run 5).mark = true
    ∧ endsStep (.readyArrival 0 true) 0 5 l = true ∧ HoldsProperly l 5 ∧ (l.run 5).mark = false
    ∧ copyNext (l.run 5).copy ≠ 0xFF ∧ reachesLimit l 5 = true
    ∧ endsStep (.frameEnd 0 false) 0 5 (shifted (copyOf 0x10 2 1 1 0 3) (some 1)) = true := by
  unfold HoldsProperly; decide +kernel
theorem test_hyp_end_of_chain :
    let s := shifted (copyOf 0x10 2 1 1 0 0xFF) (some 1)
    let s' := s.setTrigger 12 { s.trigger 12 with onEnd := some 7 }
    endsStep (.frameEnd 0 false) 0 5 s = true ∧ HoldsProperly s 5 ∧ (s.run 5).mark = false
    ∧ copyNext (s.run 5).copy = 0xFF ∧ (s.trigger (s.run 5).source).onEnd = none
    ∧ endsStep (.frameEnd 0 false) 0 5 s' = true ∧ HoldsProperly s' 5
    ∧ (s'.trigger (s'.run 5).source).onEnd = some 7 ∧ s'.claim = .closed := by
  unfold HoldsProperly; decide +kernel
/-- The next descriptor is 3, valid in `conf`: KEEP holds, KEEP is 0, or descriptor 4 is invalid. -/
theorem test_hyp_advances :
    let k := shifted (copyOf 0x50 2 1 1 0 3) (some 1)
    let r := shifted (copyOf 0x10 2 1 1 0 3) (some 1)
    let i := shifted (copyOf 0x10 2 1 1 0 4) (some 1)
    (endsStep (.frameEnd 0 false) 0 5 k = true ∧ HoldsProperly k 5 ∧ advances k 5 = true
      ∧ copyValid k (nextCopy k 5) = true ∧ keeps k 0 5 = true)
    ∧ (endsStep (.frameEnd 0 false) 0 5 r = true ∧ HoldsProperly r 5 ∧ AccountingBounded r
      ∧ advances r 5 = true ∧ copyValid r (nextCopy r 5) = true ∧ keeps r 0 5 = false)
    ∧ (endsStep (.frameEnd 0 false) 0 5 i = true ∧ HoldsProperly i 5 ∧ AccountingBounded i
      ∧ advances i 5 = true ∧ copyValid i (nextCopy i 5) = false) := by
  unfold HoldsProperly AccountingBounded; decide +kernel
/-- A ready wait that has counted its last tick: with retries left, marked, spent, and halting. -/
theorem test_hyp_timeout :
    let s := inWait (copyOf 0x30 2 1 1 0 0xFF) (some 1) 0
    let r := s.setRun 5 { s.run 5 with retries := 3 }
    let m := s.setRun 5 { s.run 5 with mark := true }
    let h := s.setPort 0 { s.port 0 with haltOnError := true }
    (timesOut 0 5 r = true ∧ HoldsProperly r 5 ∧ (r.run 5).mark = false ∧ (r.run 5).retries ≠ 0)
    ∧ (timesOut 0 5 m = true ∧ HoldsProperly m 5 ∧ (m.run 5).mark = true)
    ∧ (timesOut 0 5 s = true ∧ HoldsProperly s 5 ∧ (s.run 5).mark = false ∧ (s.run 5).retries = 0
      ∧ (s.port 0).haltOnError = false)
    ∧ (timesOut 0 5 h = true ∧ HoldsProperly h 5 ∧ (h.port 0).haltOnError = true) := by
  unfold HoldsProperly; decide +kernel
theorem test_hyp_gap_expiry :
    let d := (inGap false).setPort 0 { (inGap false).port 0 with attached := none }
    (d.mode = .running ∧ (d.port 0).state = .gap ∧ (d.port 0).interval = some 0
      ∧ (d.port 0).attached = none)
    ∧ (((inGap false).port 0).attached = some 5 ∧ ((inGap false).run 5).mark = false)
    ∧ (((inGap true).port 0).state = .gap ∧ ((inGap true).port 0).interval = some 0
      ∧ ((inGap true).port 0).attached = some 5 ∧ ((inGap true).run 5).mark = true
      ∧ HoldsProperly (inGap true) 5) := by
  unfold HoldsProperly; decide +kernel
theorem test_hyp_cut_byte_end :
    let P : PortRec := { portWith .shifting (some (frameOf (copyOf 0 2 0 0 0 0) [0x11])) none with attached := none }
    let a := conf.setPort 3 { P with cut := .abort }
    let r := conf.setPort 3 { P with cut := .reset }
    (a.mode = .running ∧ (a.port 3).state = .shifting ∧ (a.port 3).attached = none
      ∧ (a.port 3).cut = .abort ∧ (a.port 3).clockTarget = some 0)
    ∧ (r.port 3).state = .shifting ∧ (r.port 3).attached = none ∧ (r.port 3).cut = .reset := by
  decide
/-- No attached run; mid byte; before the first byte; in the ready wait; in the gap. -/
theorem test_hyp_port_abort :
    let w := inWait (copyOf 0x30 2 1 1 0 0xFF) (some 1) 3
    let b := attach (liveRun .active (copyOf 0x10 3 0 1 0 0xFF) (some 1))
      (portWith .shifting (some { frameOf (copyOf 0 3 0 0 0 0) [0x11, 0x22] with clocks := 20 }) none)
    let l := attach (liveRun .active (copyOf 0x10 3 0 1 0 0xFF) (some 1))
      (portWith .shifting (some (frameOf (copyOf 0 3 0 0 0 0) [])) none)
    BusFree conf ∧ conf.commandArg.toNat = (0 : Port).val ∧ (conf.port 0).attached = none
    ∧ (BusFree b ∧ (b.port 0).attached = some 5 ∧ HoldsProperly b 5 ∧ (b.port 0).state = .shifting
      ∧ (b.port 0).frame.any insideByte = true)
    ∧ (BusFree l ∧ (l.port 0).attached = some 5 ∧ HoldsProperly l 5 ∧ (l.port 0).state = .shifting
      ∧ (l.port 0).frame.any insideByte = false ∧ (l.port 0).clockTarget = some 0)
    ∧ (BusFree w ∧ (w.port 0).attached = some 5 ∧ HoldsProperly w 5 ∧ (w.port 0).state = .await
      ∧ (w.port 0).clockTarget = some 0)
    ∧ (BusFree (inGap false) ∧ ((inGap false).port 0).attached = some 5
      ∧ HoldsProperly (inGap false) 5 ∧ ((inGap false).port 0).state = .gap) := by
  unfold BusFree HoldsProperly; decide +kernel
theorem test_hyp_port_reset :
    let w := inWait (copyOf 0x30 2 1 1 0 0xFF) (some 1) 3
    BusFree w ∧ w.commandArg.toNat = (0 : Port).val ∧ RunsPlaced w
    ∧ ∀ n, (w.port 0).attached = some n → HoldsProperly w n := by
  unfold BusFree RunsPlaced HoldsProperly; decide +kernel
/-- Not halted; halted and disabled; enabled with no eligible run, with an URGENT one, with a NORMAL one, and
with both at the starvation limit. -/
theorem test_hyp_port_resume :
    let q := queued (copyOf 0x10 2 1 0 0 0xFF) .halted true
    let e := queued (copyOf 0x10 2 1 7 0 0xFF) .halted true |>.setQueue 7
      { resetQueue with policy := .lossless }
    let u := q.setPort 0 { q.port 0 with urgent := [5], normal := [] }
    let b := (q.setRun 9 (q.run 5)).setPort 0
      { q.port 0 with urgent := [9], starveLimit := 1, starveCount := 1 }
    BusFree q ∧ q.commandArg.toNat = (0 : Port).val ∧ (conf.port 0).state ≠ .halted
    ∧ ((q.port 0).state = .halted ∧ (q.port 0).enable = true
      ∧ (q.port 0).normal.find? (eligible q) = some 5
      ∧ (q.port 0).urgent.find? (eligible q) = none)
    ∧ ((queued (copyOf 0x10 2 1 0 0 0xFF) .halted false).port 0).enable = false
    ∧ ((e.port 0).state = .halted ∧ (e.port 0).enable = true
      ∧ (e.port 0).urgent.find? (eligible e) = none
      ∧ (e.port 0).normal.find? (eligible e) = none)
    ∧ ((u.port 0).urgent.find? (eligible u) = some 5
      ∧ (u.port 0).normal.find? (eligible u) = none)
    ∧ ((b.port 0).normal.find? (eligible b) = some 5 ∧ (b.port 0).starveLimit ≠ 0
      ∧ (b.port 0).starveLimit ≤ (b.port 0).starveCount) := by
  unfold BusFree; decide +kernel

theorem test_hyp_flush : BusFree { conf with commandArg := 7 }
    ∧ { conf with commandArg := 7 }.commandArg.toNat = (7 : QueueId).val := by
  unfold BusFree; decide
theorem test_hyp_rqsel : (0x07 : Byte).toNat = (7 : QueueId).val ∧ 8 ≤ (0x08 : Byte).toNat := by decide
/-- An empty queue; the last byte of a record and the first beyond it; its number and another one. -/
theorem test_hyp_head_and_release :
    BusFree (holding [record107] 13) ∧ ((holding [] 0).queue 5).records = []
    ∧ (holding [record107] 13).rqsel = 5
    ∧ ((holding [record107] 13).queue 5).records = [record107]
    ∧ (holding [record107] 13).headPtr < 11 + record107.data.length
    ∧ 11 + record107.data.length ≤ (holding [record107] 14).headPtr
    ∧ record107.seq = 3 ∧ record107.seq ≠ 2 := by
  unfold BusFree; decide
theorem test_hyp_nclaim :
    (notify []).mode = .running ∧ (notify []).claim = .closed ∧ bestClaimable (notify []) = some 0
    ∧ bestClaimable conf = none
    ∧ { conf with claim := .opened none }.claim = .opened none
    ∧ { conf with claim := .opened (some { group := 0, tier := .high }) }.claim
        = .opened (some { group := 0, tier := .high }) := by decide +kernel
theorem test_hyp_nend :
    let s := notify [{ group := 7, tier := .low }]
    BusFree s ∧ 8 ≤ (0x08 : Byte).toNat ∧ ((0x07 : Byte).toNat < 8 ∧ conf.stack = [])
    ∧ s.stack = [{ group := 7, tier := .low }] ∧ (7 : GroupId).val = (0x07 : Byte).toNat
    ∧ (7 : GroupId).val ≠ (0x06 : Byte).toNat := by
  unfold BusFree; decide

/-- A state with a live run in its ready wait that meets every law, and a step from it. -/
def lawful : State := { inWait (copyOf 0x30 2 1 1 0 0xFF) (some 1) 3 with pending := [.tick] }
theorem test_hyp_laws :
    MemoriesCanonical lawful ∧ SelectsDistinct lawful ∧ AccountingBounded lawful
    ∧ RunsPlaced lawful ∧ OnTargetsPort lawful ∧ ReservationsCounted lawful
    ∧ AttachedReserve lawful := by
  unfold MemoriesCanonical SelectsDistinct AccountingBounded RunsPlaced OnTargetsPort
    ReservationsCounted AttachedReserve
  decide +kernel
theorem test_hyp_laws_live :
    LiveWithinLimit lawful ∧ LiveCounted lawful ∧ StepsBelowLimit lawful ∧ CapturesBounded lawful
    ∧ FaultRecordCoherent lawful := by
  unfold LiveWithinLimit LiveCounted StepsBelowLimit CapturesBounded FaultRecordCoherent
  decide +kernel
theorem test_hyp_laws_stack_and_idle :
    StackLegal { lawful with stack := [{ group := 1, tier := .high }, { group := 6, tier := .low }] }
    ∧ IdleHasNone lawful :=
  ⟨⟨by decide, fun _ h => by cases h⟩, by unfold IdleHasNone; decide +kernel⟩
/-- A port in a frame, and one in its ready wait, as the law of the frames has them. -/
theorem test_hyp_laws_frames :
    let s := shifted (copyOf 0x10 2 1 1 0 3) (some 1)
    RunsPlaced s ∧ FramesCoherent s ∧ FramesCoherent lawful ∧ ClockWithinTick lawful := by
  have h : ∀ s ∈ [shifted (copyOf 0x10 2 1 1 0 3) (some 1), lawful], ∀ p : Port,
      ((s.port p).frame.all fun f =>
        decide (f.sent.length ≤ f.txLen) && decide (f.clocks ≤ clocksAt f (releaseHalf f))
        && (s.port p).clkIdle == modeIdleHigh f.mode && (s.port p).attached.any fun n =>
          f.target == copyTarget (s.run n).copy && f.txLen == copyTxLen (s.run n).copy
          && f.rxLen == copyRxLen (s.run n).copy) = true
      ∧ ∀ n : Slot, (s.port p).attached = some n →
          ((s.port p).state = .shifting ∨ (s.port p).state = .await) →
          (s.port p).clockTarget = some (copyTarget (s.run n).copy) := by decide +kernel
  have hf : ∀ s ∈ [shifted (copyOf 0x10 2 1 1 0 3) (some 1), lawful], FramesCoherent s := by
    intro s hs p
    obtain ⟨h1, h2⟩ := h s hs p
    refine ⟨fun f hf => ?_, h2⟩
    rw [hf] at h1
    cases ha : (s.port p).attached <;> simp [ha] at h1 ⊢
    exact ⟨h1.1.1.1, h1.1.1.2, h1.1.2, h1.2.1.1, h1.2.1.2, h1.2.2⟩
  exact ⟨by unfold RunsPlaced; decide +kernel, hf _ (by simp), hf _ (by simp),
    by unfold ClockWithinTick; decide⟩
theorem test_hyp_laws_step : after (step lawful) (fun t => t.pending == []) = true := by decide

end Sys2Proof.Tests
end

section
/-! Validation of a descriptor copy (02 R25). -/

namespace Sys2Proof.Machine

/-- A copy is valid exactly where it passes all seven tests of R25, one conjunct per condition. -/
theorem copyValid_iff (s : State) (d : DescCopy) :
    copyValid s d = true ↔
      targetEnable s.targets (copyTarget d) = true
      ∧ (copyRxLen d ≤ 16 ∧ 1 ≤ copyTxLen d + copyRxLen d ∧ copyTxLen d + copyRxLen d ≤ 32)
      ∧ copyOffset d + copyTxLen d ≤ 512
      ∧ copyRetries d ≤ 3
      ∧ ¬ (copyAwait d = true ∧ copyTimeout d = 0)
      ∧ ¬ (0x80 ≤ (copyNext d).toNat ∧ (copyNext d).toNat ≤ 0xFE)
      ∧ (s.queue (copyQueue d)).quota ≠ 0 := by
  simp only [copyValid, Bool.and_eq_true, decide_eq_true_eq, Bool.not_eq_true',
    ← Bool.not_eq_true, beq_iff_eq, bne_iff_ne, and_assoc]

/-- The byte counts fail their tests exactly where the receive count or the sum is too large, or no byte
is moved. -/
theorem not_lengths_ok_iff (rx sum : Nat) :
    ¬ (rx ≤ 16 ∧ 1 ≤ sum ∧ sum ≤ 32) ↔ 16 < rx ∨ sum = 0 ∨ 32 < sum := by
  omega

/-- De Morgan's law with each side's negation in the form wanted. -/
theorem not_and_iff_or_of {a b a' b' : Prop} (ha : ¬ a ↔ a') (hb : ¬ b ↔ b') :
    ¬ (a ∧ b) ↔ a' ∨ b' :=
  not_and_or.trans (or_congr ha hb)

/-- Settles O21: the tests of `copyValid_iff` negated one by one, in the order of R25. -/
theorem copyInvalidBySevenConditions : Obligations.CopyInvalidBySevenConditions := by
  intro d s
  rw [← Bool.not_eq_true, copyValid_iff]
  have enable := Bool.not_eq_true (targetEnable s.targets (copyTarget d))
  have lengths := not_lengths_ok_iff (copyRxLen d) (copyTxLen d + copyRxLen d)
  exact not_and_iff_or_of (iff_of_eq enable) <|
    not_and_iff_or_of lengths <|
    not_and_iff_or_of not_le <|          -- the transmit bytes stay within pattern memory
    not_and_iff_or_of not_le <|          -- retries
    not_and_iff_or_of not_not <|         -- AWAIT with timeout 0
    not_and_iff_or_of not_not not_not    -- next between 80h and FEh, quota 0

end Sys2Proof.Machine
end

section
/-! The notification controller: the choice of the best claimable group (07 R141) and the end of a
service (07 R146). -/

namespace Sys2Proof.Machine

/-- The tests of R141 as one number, the first test in the highest digit: the group with the least number
is chosen. -/
def choiceKey (s : State) (g : GroupId) : Nat :=
  (1 - groupTierCode (s.group g).tier) * 64 + (s.group g).rank.toNat * 8 + g.val

/-- The strict order of R141 is the order of the keys. -/
theorem choiceKey_lt_iff (s : State) (g h : GroupId) :
    choiceKey s g < choiceKey s h ↔
      ((s.group g).tier = .high ∧ (s.group h).tier = .low)
      ∨ ((s.group g).tier = (s.group h).tier
          ∧ ((s.group g).rank < (s.group h).rank
            ∨ ((s.group g).rank = (s.group h).rank ∧ g < h))) := by
  have rankLt := (s.group g).rank.isLt
  have rankLt' := (s.group h).rank.isLt
  simp only [choiceKey, BitVec.lt_def, ← BitVec.toNat_inj, Fin.lt_def]
  cases (s.group g).tier <;> cases (s.group h).tier <;> simp [groupTierCode] <;> omega

/-- No two groups have the same key (R141: the tests give every pair of groups a strict order). -/
theorem choiceKey_inj {s : State} {g h : GroupId} (same : choiceKey s g = choiceKey s h) : g = h := by
  apply Fin.ext
  unfold choiceKey at same
  omega

theorem groupTierCode_le_one (t : GroupTier) : groupTierCode t ≤ 1 := by
  cases t <;> decide

/-- The model compares two groups by their keys: the tier, the rank or the number decides. -/
theorem better_iff_choiceKey_lt (s : State) (g h : GroupId) :
    better s g h = true ↔ choiceKey s g < choiceKey s h := by
  have tierLe := groupTierCode_le_one (s.group g).tier
  have tierLe' := groupTierCode_le_one (s.group h).tier
  have rankLt := (s.group g).rank.isLt
  have rankLt' := (s.group h).rank.isLt
  simp only [better, choiceKey, ne_eq, BitVec.lt_def, ← BitVec.toNat_inj, Fin.lt_def]
  split_ifs <;> rw [decide_eq_true_eq] <;> omega

theorem pickBetter_eq_argAux (s : State) :
    pickBetter s = List.argAux fun g h => choiceKey s g < choiceKey s h := by
  funext best g
  cases best with
  | none => rfl
  | some b => simp only [pickBetter, List.argAux, better_iff_choiceKey_lt]

/-- The model's choice is the claimable group with the least key. -/
theorem bestClaimable_eq_argmin (s : State) :
    bestClaimable s = (allGroups.filter (claimable s)).argmin (choiceKey s) := by
  rw [bestClaimable, pickBetter_eq_argAux, List.argmin]

theorem mem_claimableGroups (s : State) (g : GroupId) :
    g ∈ allGroups.filter (claimable s) ↔ claimable s g = true := by
  simp [allGroups]

/-- The group chosen is claimable and has a lower key than every other claimable group. -/
theorem bestClaimable_eq_some_iff (s : State) (g : GroupId) :
    bestClaimable s = some g ↔
      claimable s g = true
      ∧ ∀ h, h ≠ g → claimable s h = true → choiceKey s g < choiceKey s h := by
  rw [bestClaimable_eq_argmin, List.argmin_eq_some_iff]
  simp only [mem_claimableGroups]
  constructor
  · rintro ⟨claim, least, -⟩
    exact ⟨claim, fun h ne claim' =>
      lt_of_le_of_ne (least h claim') fun same => ne (choiceKey_inj same).symm⟩
  · rintro ⟨claim, least⟩
    have le_of_claim : ∀ h, claimable s h = true → choiceKey s g ≤ choiceKey s h := by
      intro h claim'
      by_cases eq : h = g
      · rw [eq]
      · exact (least h eq claim').le
    refine ⟨claim, le_of_claim, fun h claim' le => ?_⟩
    rw [choiceKey_inj (le.antisymm (le_of_claim h claim'))]

/-- There is no choice exactly where no group is claimable. -/
theorem bestClaimable_eq_none_iff (s : State) :
    bestClaimable s = none ↔ ∀ h, claimable s h = false := by
  rw [bestClaimable_eq_argmin, List.argmin_eq_none]
  simp [List.filter_eq_nil_iff, allGroups]

/-- Settles O47: the least key among the claimable groups, and the order of the keys test by test. -/
theorem bestClaimableByThreeTests : Obligations.BestClaimableByThreeTests := by
  intro g s
  simp only [← choiceKey_lt_iff]
  exact ⟨bestClaimable_eq_some_iff s g, bestClaimable_eq_none_iff s⟩

/-- An NEND write on a free bus is judged by `endService` (R146). -/
theorem exec_nendWrite_of_busFree {s : State} (v : Byte) (free : BusFree s) :
    exec (.nendWrite v) s = .next (endService v s) :=
  congrArg Host.Outcome.next (hostWrite_of_busFree (endService v) free)

/-- A value that names no group is refused, whatever the stack holds. -/
theorem endService_of_ge {v : Byte} (s : State) (large : 8 ≤ v.toNat) :
    endService v s = recorded .badArgument s := by
  rw [endService, argOf_of_ge large, refuse_eq_recorded]

/-- The end of a group on an empty stack is refused. -/
theorem endService_of_nil {v : Byte} {s : State} (g : GroupId) (names : v.toNat = g.val)
    (empty : s.stack = []) : endService v s = recorded .endEmpty s := by
  simp only [endService, argOf_of_val g names, empty, refuse_eq_recorded]

/-- The end of a group on a stack that holds entries pops the top entry where it names that group, and is
refused elsewhere. -/
theorem endService_of_cons {v : Byte} {s : State} (g : GroupId) {top : StackEntry}
    {rest : List StackEntry} (names : v.toNat = g.val) (stack : s.stack = top :: rest) :
    endService v s =
      if top.group = g then { s with stack := rest } else recorded .endMismatch s := by
  simp only [endService, argOf_of_val g names, stack, refuse_eq_recorded]

/-- Register 14h is write-only and reads 00h, in every mode (10.5). -/
theorem readRegister_nend (s : State) : readRegister 0x14 s = 0 := by
  by_cases running : s.mode = .running <;> simp [readRegister, running]

/-- Settles O49: the branches of `endService`, in the order of R146. -/
theorem nendPopsTheTopEntry : Obligations.NendPopsTheTopEntry := by
  intro v top rest s free
  rw [exec_nendWrite_of_busFree v free]
  refine ⟨fun large => ?badArgument, fun small empty => ?endEmpty,
    fun small stack differs => ?endMismatch, fun stack matching => ?popped, readRegister_nend s⟩
  case badArgument => rw [endService_of_ge s large]
  case endEmpty => rw [endService_of_nil ⟨v.toNat, small⟩ rfl empty]
  case endMismatch =>
    have ne : top.group ≠ ⟨v.toNat, small⟩ := fun eq => differs (congrArg Fin.val eq)
    rw [endService_of_cons ⟨v.toNat, small⟩ rfl stack, if_neg ne]
  case popped => rw [endService_of_cons top.group matching.symm stack, if_pos rfl]

end Sys2Proof.Machine
end

section
/-! The host bus interface: the selection of a table and of a byte in it (09 R167, R168), and the read of
TDATA (R169). -/

namespace Sys2Proof.Machine

/-- A TSEL write on a free bus selects by its value (R167). -/
theorem exec_tselWrite_of_busFree {s : State} (v : Byte) (free : BusFree s) :
    exec (.tselWrite v) s = .next (selectTable v s) :=
  congrArg Host.Outcome.next (hostWrite_of_busFree (selectTable v) free)

/-- A write of a plain register on a free bus stores its value (R165, R168). -/
theorem exec_registerWrite_of_busFree {s : State} (reg : PlainReg) (v : Byte) (free : BusFree s) :
    exec (.registerWrite reg v) s = .next (storeRegister reg v s) :=
  congrArg Host.Outcome.next (hostWrite_of_busFree (storeRegister reg v) free)

/-- A TDATA read on a free bus gives its byte and moves the index on (R169). -/
theorem exec_tdataRead_of_busFree {s : State} (free : BusFree s) :
    exec .tdataRead s = .next (readTdata s) :=
  congrArg Host.Outcome.next (hostRead_of_busFree readTdata free)

/-- No byte of a table is made from the selection or from what the data lines show. -/
theorem tableRead_frame_selection (x : Fin 9) (i : Nat) (s : State) (tab : Fin 9) (j : BitVec 10)
    (b : Byte) : tableRead x i { s with tsel := tab, tidx := j, dataOut := b } = tableRead x i s := rfl

theorem selectTable_of_val {v : Byte} {s : State} (tab : Fin 9) (names : v.toNat = tab.val) :
    selectTable v s = { s with tsel := tab, tidx := 0 } := by
  simp only [selectTable, argOf_of_val tab names]

theorem selectTable_of_ge {v : Byte} (s : State) (large : 9 ≤ v.toNat) :
    selectTable v s = recorded .badArgument s := by
  simp only [selectTable, argOf_of_ge large, refuse_eq_recorded]

theorem readRegister_tsel {s : State} (running : s.mode = .running) :
    readRegister 0x08 s = byteOf s.tsel.val := by
  simp [readRegister, running]

theorem readRegister_tidxLo {s : State} (running : s.mode = .running) :
    readRegister 0x09 s = s.tidx.setWidth 8 := by
  simp [readRegister, running]

theorem readRegister_tidxHi {s : State} (running : s.mode = .running) :
    readRegister 0x0A s = (s.tidx >>> 8).setWidth 8 := by
  simp [readRegister, running]

/-- TIDX_HI shows bits 8 and 9 of the index as a number from 0 to 3. -/
theorem toNat_readRegister_tidxHi {s : State} (running : s.mode = .running) :
    (readRegister 0x0A s).toNat = s.tidx.toNat / 256 := by
  have idxLt := s.tidx.isLt
  rw [readRegister_tidxHi running, BitVec.toNat_setWidth, BitVec.toNat_ushiftRight,
    Nat.shiftRight_eq_div_pow]
  omega

/-- A byte is formed again from its own value. -/
theorem byteOf_eq_of_toNat {v : Byte} {n : Nat} (value : v.toNat = n) : byteOf n = v := by
  rw [byteOf, ← value, BitVec.ofNat_toNat, BitVec.setWidth_eq]

/-- TIDX_LO replaces the index modulo 256 (R168). -/
theorem toNat_tidx_storeRegister_tidxLo (v : Byte) (s : State) :
    (storeRegister .tidxLo v s).tidx.toNat = s.tidx.toNat / 256 * 256 + v.toNat := by
  have idxLt := s.tidx.isLt
  have valueLt := v.isLt
  simp only [storeRegister, BitVec.toNat_ofNat]
  omega

/-- TIDX_HI replaces the quotient of the index by 256 with the two low bits of the value (R168). -/
theorem toNat_tidx_storeRegister_tidxHi (v : Byte) (s : State) :
    (storeRegister .tidxHi v s).tidx.toNat = v.toNat % 4 * 256 + s.tidx.toNat % 256 := by
  simp only [storeRegister, bitsOf, BitVec.toNat_ofNat]
  omega

/-- The bits that a TIDX_LO write sets, and those that it leaves (R168). -/
theorem tidxLo_write_bits (v : Byte) (s : State) :
    (storeRegister .tidxLo v s).tidx.setWidth 8 = v
      ∧ (storeRegister .tidxLo v s).tidx >>> 8 = s.tidx >>> 8 := by
  have valueLt := v.isLt
  simp only [← BitVec.toNat_inj, BitVec.toNat_setWidth, BitVec.toNat_ushiftRight,
    Nat.shiftRight_eq_div_pow, toNat_tidx_storeRegister_tidxLo]
  omega

/-- The bits that a TIDX_HI write leaves, and those that it sets (R168). -/
theorem tidxHi_write_bits (v : Byte) (s : State) :
    (storeRegister .tidxHi v s).tidx.setWidth 8 = s.tidx.setWidth 8
      ∧ ((storeRegister .tidxHi v s).tidx >>> 8).setWidth 2 = v.setWidth 2 := by
  simp only [← BitVec.toNat_inj, BitVec.toNat_setWidth, BitVec.toNat_ushiftRight,
    Nat.shiftRight_eq_div_pow, toNat_tidx_storeRegister_tidxHi]
  omega

/-- Settles O8: the two branches of `selectTable`, and the index as a number after each index write. -/
theorem selectionWritesSetTableAndIndex : Obligations.SelectionWritesSetTableAndIndex := by
  intro v s free
  have running := free.1
  rw [exec_tselWrite_of_busFree v free, exec_registerWrite_of_busFree .tidxLo v free,
    exec_registerWrite_of_busFree .tidxHi v free]
  refine ⟨fun tab names => ?selected, fun large => ?refused,
    ⟨_, rfl, rfl, tidxLo_write_bits v s⟩, ⟨_, rfl, rfl, tidxHi_write_bits v s⟩,
    readRegister_tidxLo running, toNat_readRegister_tidxHi running⟩
  case selected =>
    refine ⟨_, rfl, selectTable_of_val tab names, ?_, fun x i => ?_⟩ <;>
      rw [selectTable_of_val tab names]
    · exact (readRegister_tsel (s := { s with tsel := tab, tidx := 0 }) running).trans
        (byteOf_eq_of_toNat names)
    · exact tableRead_frame_selection x i s tab 0 s.dataOut
  case refused => rw [selectTable_of_ge s large]

theorem tableSize_le (tab : Fin 9) : tableSize tab ≤ 1024 := by
  unfold tableSize
  split <;> decide

/-- The next index is a number of ten bits: no table is larger than the index reaches. -/
theorem toNat_nextIndex (tab : Fin 9) (i : Nat) :
    (nextIndex tab i).toNat = if i + 1 < tableSize tab then i + 1 else 0 := by
  have sizeLe := tableSize_le tab
  unfold nextIndex
  split
  · rw [BitVec.toNat_ofNat, Nat.mod_eq_of_lt (by omega)]
  · rfl

/-- Settles O9: the read is `readTdata`, whose index is `nextIndex`; the tables are framed. -/
theorem tdataReadReturnsByteAndAdvances : Obligations.TdataReadReturnsByteAndAdvances := by
  intro s free
  rw [exec_tdataRead_of_busFree free]
  exact ⟨readTdata s, rfl, rfl, toNat_nextIndex s.tsel s.tidx.toNat,
    fun x i => tableRead_frame_selection x i s s.tsel _ _⟩

end Sys2Proof.Machine
end

section
/-! The end of start-up (09 R176, R177): what the blocks, the registers, the tables and the pins show. -/

namespace Sys2Proof.Machine

/-- START_UP_END during the start-up clear leaves `startedUp` (R176). -/
theorem exec_startUpEnd_of_startUp {s : State} (clearing : s.mode = .startUp) :
    exec .startUpEnd s = .next (startedUp s) :=
  congrArg Host.Outcome.next (if_pos clearing)

section
variable (s : State)

-- The fields and the register files

@[simp] theorem startedUp_mode : (startedUp s).mode = .running := rfl
@[simp] theorem startedUp_desc : (startedUp s).desc = [] := rfl
@[simp] theorem startedUp_pattern : (startedUp s).pattern = [] := rfl
@[simp] theorem startedUp_targets : (startedUp s).targets = [] := rfl
@[simp] theorem startedUp_nen : (startedUp s).nen = false := rfl
@[simp] theorem startedUp_nlow : (startedUp s).nlow = false := rfl
@[simp] theorem startedUp_stack : (startedUp s).stack = [] := rfl
@[simp] theorem startedUp_claim : (startedUp s).claim = .closed := rfl
@[simp] theorem startedUp_irqSample : (startedUp s).irqSample = false := rfl
@[simp] theorem startedUp_tbdiv : (startedUp s).tbdiv = 0 := rfl
@[simp] theorem startedUp_timestamp : (startedUp s).timestamp = 0 := rfl
@[simp] theorem startedUp_tsLatch : (startedUp s).tsLatch = 0 := rfl
@[simp] theorem startedUp_tsel : (startedUp s).tsel = 0 := rfl
@[simp] theorem startedUp_tidx : (startedUp s).tidx = 0 := rfl
@[simp] theorem startedUp_rqsel : (startedUp s).rqsel = 0 := rfl
@[simp] theorem startedUp_headPtr : (startedUp s).headPtr = 0 := rfl
@[simp] theorem startedUp_commandArg : (startedUp s).commandArg = 0 := rfl
@[simp] theorem startedUp_fault : (startedUp s).fault = .none := rfl
@[simp] theorem startedUp_laterFaults : (startedUp s).laterFaults = 0 := rfl

@[simp] theorem startedUp_trigger (n : Source) : (startedUp s).trigger n = resetEntry := by
  simp [State.trigger, startedUp, State.reset]

@[simp] theorem startedUp_run (n : Slot) : (startedUp s).run n = freeRun := by
  simp [State.run, startedUp, State.reset]

@[simp] theorem startedUp_port (p : Port) : (startedUp s).port p = resetPort := by
  simp [State.port, startedUp, State.reset]

@[simp] theorem startedUp_queue (q : QueueId) : (startedUp s).queue q = resetQueue := by
  simp [State.queue, startedUp, State.reset]

@[simp] theorem startedUp_group (g : GroupId) :
    (startedUp s).group g = { enable := false, tier := .low, rank := 0 } := by
  simp [State.group, startedUp, State.reset]

@[simp] theorem startedUp_timer (k : TimerId) :
    (startedUp s).timer k = { reload := 0, mode := .oneShot, running := false, count := 0 } := by
  simp [State.timer, startedUp, State.reset]

-- The derived conditions

/-- No source is active: no queue has a level or a latch, no source a latch, and no port is halted. -/
@[simp] theorem startedUp_activeSources (g : GroupId) : activeSources (startedUp s) g = 0 := by
  have queues : queueSources resetQueue = 0 := rfl
  have misses : missActive resetEntry = false := rfl
  have halts : haltActive resetPort = false := rfl
  simp [activeSources, queues, misses, halts, bitVal]

@[simp] theorem startedUp_pendingGroup (g : GroupId) : pendingGroup (startedUp s) g = false := by
  simp [pendingGroup]

@[simp] theorem startedUp_claimable (g : GroupId) : claimable (startedUp s) g = false := by
  simp [claimable]

@[simp] theorem startedUp_inService (g : GroupId) : inService (startedUp s) g = false := by
  simp [inService]

@[simp] theorem startedUp_tierAtClaim (g : GroupId) : tierAtClaim (startedUp s) g = .low := by
  simp [tierAtClaim]

@[simp] theorem startedUp_irqState : irqState (startedUp s) = false := by
  simp [irqState]

@[simp] theorem startedUp_bestEntry : bestEntry (startedUp s) = none := by
  simp [bestEntry, bestClaimable_eq_none_iff]

@[simp] theorem startedUp_anyHalted : anyHalted (startedUp s) = false := by
  simp [anyHalted, resetPort]

@[simp] theorem startedUp_freeCount : freeCount (startedUp s) = 32 := by
  simp [freeCount, allSlots, freeRun]

-- The registers whose bytes are formed from several items

theorem statusByte_startedUp : statusByte (startedUp s) = 0 := by
  simp [statusByte, bitVal, byteOf]

theorem tdataByte_startedUp : tdataByte (startedUp s) = 0 := by
  simp [tdataByte, tableRead, memRead, memUnlisted]

theorem flagsByte_startedUp : flagsByte (startedUp s) = 0 := by
  simp [flagsByte, resetQueue, Queue.level, bitVal, byteOf]

theorem headByte_startedUp : headByte (startedUp s) = 0 := by
  simp [headByte, resetQueue]

theorem nclaimByte_startedUp : nclaimByte (startedUp s) = 0x80 := by
  simp [nclaimByte, claimValue]

theorem stackPart_startedUp (t : GroupTier) : stackPart (startedUp s) t = 0 := by
  simp [stackPart]

theorem pendByte_startedUp : pendByte (startedUp s) = 0 := by
  simp [pendByte, bitVal, byteOf]

theorem portPairByte_startedUp (a b : Port) : portPairByte (startedUp s) a b = 0 := by
  simp [portPairByte, resetPort, portStateCode, byteOf]

theorem timerStateByte_startedUp : timerStateByte (startedUp s) = 0 := by
  simp [timerStateByte, bitVal, byteOf]

theorem missByte_startedUp (base : Nat) : missByte (startedUp s) base = 0 := by
  simp [missByte, resetEntry, bitVal, byteOf]

/-- Every register after start-up (R177, 10 10.5): IDENT, REVISION, NCLAIM without a claim and RUNFREE
show something, the others 00h. -/
theorem readRegister_startedUp (a : Fin 32) :
    readRegister a (startedUp s) =
      if a.val = 0x00 then 0x43 else if a.val = 0x01 then 0x01
      else if a.val = 0x13 then 0x80 else if a.val = 0x1C then 32 else 0 := by
  fin_cases a <;>
    simp [readRegister, statusByte_startedUp, tdataByte_startedUp, flagsByte_startedUp,
      headByte_startedUp, nclaimByte_startedUp, stackPart_startedUp, pendByte_startedUp,
      portPairByte_startedUp, timerStateByte_startedUp, missByte_startedUp, faultCodeVal,
      resetQueue, Queue.occupancy, lowByte, bitVal, byteOf]

-- The tables

theorem trigByte_resetEntry (k : Nat) : trigByte resetEntry k = 0 := by
  unfold trigByte
  split <;> rfl

theorem queueByte_resetQueue (k : Nat) : queueByte resetQueue k = 0 := by
  unfold queueByte
  split <;> rfl

theorem viewByte_freeRun (k : Nat) : viewByte freeRun k = 0 := by
  unfold viewByte
  split <;> rfl

theorem portByte_resetPort (k : Nat) : portByte resetPort k = 0 := by
  unfold portByte
  split <;> rfl

theorem groupByte_startedUp (g : GroupId) (k : Nat) : groupByte (startedUp s) g k = 0 := by
  unfold groupByte
  split <;> simp [groupTierCode, bitVal, byteOf]

theorem timerByte_startedUp (j : TimerId) (k : Nat) :
    timerByte ((startedUp s).timer j) k = 0 := by
  rw [startedUp_timer]
  unfold timerByte
  split <;> rfl

/-- Every byte of every table after start-up (R176). -/
theorem tableRead_startedUp (tab : Fin 9) (i : Nat) : tableRead tab i (startedUp s) = 0 := by
  unfold tableRead
  split
  · rfl
  · rfl
  · rfl
  · rw [startedUp_trigger, trigByte_resetEntry]
  · rw [startedUp_queue, queueByte_resetQueue]
  · exact groupByte_startedUp s _ _
  · rw [startedUp_run, viewByte_freeRun]
  · rw [startedUp_port, portByte_resetPort]
  · exact timerByte_startedUp s _ _

-- The pins

/-- No port shifts a frame after start-up. -/
theorem onWire_startedUp (p : Port) : onWire (startedUp s) p = none := by
  simp [onWire, resetPort]

/-- The pins of a port after start-up (05 R104). -/
theorem pins_startedUp (p : Port) (line : Bool) :
    selectPin (startedUp s) p line = true ∧ clockPin (startedUp s) p = false
      ∧ dataPin (startedUp s) p = false := by
  simp [selectPin, clockPin, dataPin, clockPinRest, onWire_startedUp, resetPort]

theorem irqPin_startedUp : irqPin (startedUp s) = true := rfl

end

/-- Settles O4: the interface's fields by the reset value, then the registers, the tables and the pins. -/
theorem startUpLeavesResetValues : Obligations.StartUpLeavesResetValues := by
  intro s clearing
  rw [exec_startUpEnd_of_startUp clearing]
  refine ⟨startedUp s, rfl, rfl, rfl, rfl, rfl, rfl, rfl, rfl, rfl, fun p => ?portOff,
    readRegister_startedUp s, fun tab i _ => tableRead_startedUp s tab i.val, irqPin_startedUp s,
    pins_startedUp s⟩
  case portOff => rw [startedUp_port]; rfl

end Sys2Proof.Machine
end

section
/-! The result queues under an event of the engine (chapter 6): what a posting, a conversion and a return do
to the queues, with no assumption on the state. -/

namespace Sys2Proof.Machine

/-- The state with the result queues and the head-stream pointer replaced: all that a posting touches. -/
def State.results (s : State) (qs : Vector Queue 8) (hp : Nat) : State :=
  { s with queues := qs, headPtr := hp }

section
variable (s : State) (qs : Vector Queue 8) (hp : Nat)

@[simp] theorem State.results_run (n : Slot) : (s.results qs hp).run n = s.run n := rfl
@[simp] theorem State.results_port (p : Port) : (s.results qs hp).port p = s.port p := rfl
@[simp] theorem State.results_trigger (n : Source) :
    (s.results qs hp).trigger n = s.trigger n := rfl
@[simp] theorem State.results_queue (q : QueueId) : (s.results qs hp).queue q = qs[q] := rfl
@[simp] theorem State.results_desc : (s.results qs hp).desc = s.desc := rfl
@[simp] theorem State.results_targets : (s.results qs hp).targets = s.targets := rfl

@[simp] theorem State.results_results (qs' : Vector Queue 8) (hp' : Nat) :
    (s.results qs hp).results qs' hp' = s.results qs' hp' := rfl

end

-- Updates of different register files commute: results first, then triggers, runs and ports.

section
variable (s : State)

theorem State.setPort_comm {p p' : Port} (h : p ≠ p') (x y : PortRec) :
    (s.setPort p x).setPort p' y = (s.setPort p' y).setPort p x := by
  have hv : p.val ≠ p'.val := fun e => h (Fin.ext e)
  simp only [State.setPort]
  rw [Vector.set_comm _ _ hv]
@[simp] theorem State.setRun_setTrigger (n : Slot) (x : Run) (m : Source) (e : TrigEntry) :
    (s.setRun n x).setTrigger m e = (s.setTrigger m e).setRun n x := rfl
@[simp] theorem State.setPort_setTrigger (p : Port) (x : PortRec) (m : Source) (e : TrigEntry) :
    (s.setPort p x).setTrigger m e = (s.setTrigger m e).setPort p x := rfl
@[simp] theorem State.setPort_setRun (p : Port) (x : PortRec) (n : Slot) (r : Run) :
    (s.setPort p x).setRun n r = (s.setRun n r).setPort p x := rfl
@[simp] theorem State.setTrigger_results (m : Source) (e : TrigEntry) (qs : Vector Queue 8) (hp : Nat) :
    (s.setTrigger m e).results qs hp = (s.results qs hp).setTrigger m e := rfl
@[simp] theorem State.setRun_results (n : Slot) (x : Run) (qs : Vector Queue 8) (hp : Nat) :
    (s.setRun n x).results qs hp = (s.results qs hp).setRun n x := rfl
@[simp] theorem State.setPort_results (p : Port) (x : PortRec) (qs : Vector Queue 8) (hp : Nat) :
    (s.setPort p x).results qs hp = (s.results qs hp).setPort p x := rfl

end

/-- A queue with the configuration of `Q` (06 6.8). -/
def Queue.SameConfig (Q Q' : Queue) : Prop :=
  Q'.quota = Q.quota ∧ Q'.policy = Q.policy ∧ Q'.threshold = Q.threshold ∧ Q'.group = Q.group
    ∧ Q'.levelEn = Q.levelEn ∧ Q'.lostEn = Q.lostEn ∧ Q'.errEn = Q.errEn

/-- What an event that gives up the reservation `held` and takes the reservation `taken` leaves of the
queues: the configuration, the records that stood, the counts with one fewer and one more, the bound of
06 R105, and no room in a LOSSLESS queue that was not there before, but in the queue `freed`. -/
structure Settles (s : State) (held taken freed : Option QueueId) (qs : Vector Queue 8) : Prop where
  config : ∀ q : QueueId, (s.queue q).SameConfig qs[q]
  resv : ∀ q : QueueId, (qs[q]).resv =
    (s.queue q).resv - (if held = some q then 1 else 0) + (if taken = some q then 1 else 0)
  occupancy : ∀ q : QueueId, (s.queue q).occupancy ≤ (qs[q]).occupancy
  bound : ∀ q : QueueId, (s.queue q).occupancy + (s.queue q).resv ≤ (s.queue q).quota →
    (qs[q]).occupancy + (qs[q]).resv ≤ (qs[q]).quota
  room : ∀ q : QueueId, freed ≠ some q → (s.queue q).policy = .lossless →
    (qs[q]).hasRoom = true → (s.queue q).hasRoom = true

theorem Queue.SameConfig.refl (Q : Queue) : Q.SameConfig Q := ⟨rfl, rfl, rfl, rfl, rfl, rfl, rfl⟩

theorem Queue.SameConfig.trans {Q R T : Queue} (h : Q.SameConfig R) (h' : R.SameConfig T) :
    Q.SameConfig T := by
  obtain ⟨a, b, c, d, e, f, g⟩ := h
  obtain ⟨a', b', c', d', e', f', g'⟩ := h'
  exact ⟨a'.trans a, b'.trans b, c'.trans c, d'.trans d, e'.trans e, f'.trans f, g'.trans g⟩

theorem Queue.afterPost_sameConfig (Q : Queue) (rec : Record) (held : Bool) :
    Q.SameConfig (Q.afterPost rec held) := by
  unfold Queue.afterPost
  split <;> exact .refl Q

/-- A conversion takes one reservation off the count (06 R108); a posting without one takes none. -/
theorem Queue.afterPost_resv (Q : Queue) (rec : Record) (held : Bool) :
    (Q.afterPost rec held).resv = Q.resv - (if held then 1 else 0) := by
  unfold Queue.afterPost
  split
  · rfl
  · next h => cases held <;> simp_all [Queue.takes]

/-- A posting keeps the records that stood, and a conversion adds one. -/
theorem Queue.afterPost_occupancy (Q : Queue) (rec : Record) (held : Bool) :
    Q.occupancy + (if held then 1 else 0) ≤ (Q.afterPost rec held).occupancy := by
  by_cases ht : Q.takes held = true
  · cases held <;> simp [Queue.afterPost, Queue.occupancy, ht]
  · cases held
    · simp [Queue.afterPost, Queue.occupancy, ht]
    · simp [Queue.takes] at ht

/-- A posting makes no room (06 R108, R111). -/
theorem Queue.afterPost_room (Q : Queue) (rec : Record) (held : Bool)
    (hr : held = true → 0 < Q.resv) (h : (Q.afterPost rec held).hasRoom = true) :
    Q.hasRoom = true := by
  have hc := (Q.afterPost_sameConfig rec held).1
  have hv := Q.afterPost_resv rec held
  have ho := Q.afterPost_occupancy rec held
  simp only [Queue.hasRoom, decide_eq_true_eq, hc, hv] at h ⊢
  cases held with
  | false => simp only [Bool.false_eq_true, if_false] at h ho; omega
  | true => have := hr rfl; simp only [if_true] at h ho; omega

/-- A return gives the room back in its own queue (06 R109). -/
theorem State.queue_results_set (s : State) (q x : QueueId) (Q : Queue) :
    (s.queues.set q Q)[x] = if x = q then Q else s.queue x :=
  State.setQueue_queue s q Q x

/-- The queues after a posting settle the reservation converted, if any. -/
theorem posted_settles (s : State) (q : QueueId) (rec : Record) (held : Bool)
    (hr : held = true → 0 < (s.queue q).resv) :
    Settles s (if held then some q else none) none none (posted s q rec held).queues := by
  have hq (x : QueueId) : (posted s q rec held).queues[x] =
      if x = q then (s.queue q).afterPost rec held else s.queue x := s.queue_results_set q x _
  refine ⟨fun x => ?_, fun x => ?_, fun x => ?_, fun x hb => ?_, fun x _ _ hx => ?_⟩
  all_goals rw [hq] at *
  all_goals by_cases hxq : x = q
  · subst hxq; rw [if_pos rfl]; exact Queue.afterPost_sameConfig _ _ _
  · rw [if_neg hxq]; exact .refl _
  · subst hxq
    rw [if_pos rfl, Queue.afterPost_resv]
    cases held <;> simp
  · rw [if_neg hxq]
    cases held <;> simp [Ne.symm hxq]
  · subst hxq
    rw [if_pos rfl]
    exact le_trans (Nat.le_add_right _ _) (Queue.afterPost_occupancy _ rec held)
  · rw [if_neg hxq]
  · subst hxq
    rw [if_pos rfl]
    obtain ⟨h1, h2⟩ := Queue.afterPost_bound _ rec held hb hr
    exact h1 ▸ h2
  · rw [if_neg hxq]; exact hb
  · subst hxq
    rw [if_pos rfl] at hx
    exact Queue.afterPost_room _ rec held hr hx
  · rwa [if_neg hxq] at hx

theorem posted_eq_results (s : State) (q : QueueId) (rec : Record) (held : Bool) :
    posted s q rec held = s.results (posted s q rec held).queues (posted s q rec held).headPtr := rfl

/-- The queue that the record of the run in slot `n` goes to: that of its reservation, or its copy's. -/
def postQueue (s : State) (n : Slot) : QueueId := (s.run n).resv.getD (copyQueue (s.run n).copy)

/-- The record of the run in slot `n` converts a reservation that its queue counts. -/
def converts (s : State) (n : Slot) : Bool :=
  match (s.run n).resv with
  | some q => decide (0 < (s.queue q).resv)
  | none => false

theorem convert_eq (q : QueueId) (rec : Record) (s : State) :
    convert q rec s = posted s q rec (decide (0 < (s.queue q).resv)) := by
  by_cases h : 0 < (s.queue q).resv
  · rw [convert_eq_posted rec h, decide_eq_true h]
  · rw [convert, if_neg h, postFree_eq_posted, decide_eq_false h]

theorem setRun_resv_none {s : State} {n : Slot} (h : (s.run n).resv = none) :
    s.setRun n { s.run n with resv := none } = s := by
  rw [← h]
  exact State.setRun_self s n

/-- The record of an attached run, whatever the state: posted to its queue, and the run holds no reservation
afterwards. -/
theorem postHeld_eq (n : Slot) (rec : Record) (s : State) :
    postHeld n rec s =
      (posted s (postQueue s n) rec (converts s n)).setRun n { s.run n with resv := none } := by
  cases hr : (s.run n).resv with
  | none =>
    simp only [postHeld, postQueue, converts, hr, Option.getD_none, postFree_eq_posted]
    exact (setRun_resv_none (s := posted s _ rec false) hr).symm
  | some q =>
    simp only [postHeld, postQueue, converts, hr, Option.getD_some, convert_eq]
    rfl

/-- A posting for a run settles the reservation that the run holds. -/
theorem postHeld_settles (n : Slot) (rec : Record) (s : State) :
    Settles s (s.run n).resv none none (posted s (postQueue s n) rec (converts s n)).queues := by
  have hr : converts s n = true → 0 < (s.queue (postQueue s n)).resv := by
    unfold converts postQueue
    cases (s.run n).resv <;> simp
  have h := posted_settles s (postQueue s n) rec (converts s n) hr
  refine ⟨h.config, fun q => ?_, h.occupancy, h.bound, h.room⟩
  rw [h.resv]
  unfold converts postQueue
  cases (s.run n).resv with
  | none => simp
  | some q' =>
    by_cases hv : 0 < (s.queue q').resv
    · simp [hv]
    · by_cases hq : q' = q
      · subst hq; simp [Nat.eq_zero_of_not_pos hv]
      · simp [hv, hq]

/-- A return settles the reservation that the run holds, and its queue may have room again. -/
theorem returnResv_settles (n : Slot) (s : State) :
    ∃ qs, Settles s (s.run n).resv none (s.run n).resv qs
      ∧ returnResv n s = (s.results qs s.headPtr).setRun n { s.run n with resv := none } := by
  cases hr : (s.run n).resv with
  | none =>
    refine ⟨s.queues, ⟨fun q => .refl _, fun q => by simp [State.queue], fun q => le_refl _,
      fun q h => h, fun q _ _ h => h⟩, ?_⟩
    simp only [returnResv, hr]
    exact (setRun_resv_none hr).symm
  | some q =>
    refine ⟨s.queues.set q { s.queue q with resv := (s.queue q).resv - 1 },
      ⟨fun x => ?_, fun x => ?_, fun x => ?_, fun x hb => ?_, fun x hx _ hroom => ?_⟩, ?_⟩
    · rw [s.queue_results_set q]; split
      · next h => subst h; exact .refl _
      · exact .refl _
    · rw [s.queue_results_set q]
      by_cases h : x = q
      · subst h; simp
      · simp [h, Ne.symm h]
    · rw [s.queue_results_set q]; split
      · next h => subst h; exact le_refl _
      · exact le_refl _
    · rw [s.queue_results_set q]; split
      · next h => subst h; simp only [Queue.occupancy] at *; omega
      · exact hb
    · rw [s.queue_results_set q, if_neg (fun h => hx (by rw [h]))] at hroom
      exact hroom
    · simp only [returnResv, hr]; rfl

/-- The record or the return of a successful step settles the run's reservation (03 R50, R52). -/
theorem settleStep_settles (n : Slot) (s : State) :
    ∃ qs hp, Settles s (s.run n).resv none (returnedBy (s.run n)) qs
      ∧ settleStep n s = (s.results qs hp).setRun n { s.run n with resv := none } := by
  by_cases hp : copyPost (s.run n).copy = true
  · simp only [settleStep, returnedBy, hp, if_true]
    exact ⟨_, _, postHeld_settles n _ s, postHeld_eq n _ s⟩
  · simp only [settleStep, returnedBy, hp]
    obtain ⟨qs, h, heq⟩ := returnResv_settles n s
    exact ⟨qs, _, h, heq⟩

/-- A posting without reservation after an event settles what the event settles. -/
theorem Settles.postFree {s : State} {held taken freed : Option QueueId} {qs : Vector Queue 8}
    (h : Settles s held taken freed qs) (hp : Nat) (q : QueueId) (rec : Record) :
    Settles s held taken freed (posted (s.results qs hp) q rec false).queues := by
  have h' := posted_settles (s.results qs hp) q rec false (by simp)
  refine ⟨fun x => (h.config x).trans (h'.config x), fun x => ?_,
    fun x => (h.occupancy x).trans (h'.occupancy x), fun x hb => ?_, fun x hx hl hr => ?_⟩
  · rw [h'.resv]
    simpa using h.resv x
  · exact h'.bound x (h.bound x hb)
  · exact h.room x hx hl (h'.room x (by simp) ((h.config x).2.1.trans hl) hr)

/-- Room given back in a LOSSY queue makes no run eligible. -/
theorem Settles.lossy {s : State} {held taken : Option QueueId} {q : QueueId} {qs : Vector Queue 8}
    (h : Settles s held taken (some q) qs) (hq : (s.queue q).policy = .lossy) :
    Settles s held taken none qs := by
  refine ⟨h.config, h.resv, h.occupancy, h.bound, fun x _ hl hr => h.room x ?_ hl hr⟩
  rintro ⟨⟩
  simp [hq] at hl

/-- A queue that still has no room leads no port to a decision. -/
theorem Settles.full {s : State} {held taken : Option QueueId} {q : QueueId} {qs : Vector Queue 8}
    (h : Settles s held taken (some q) qs) (hq : (qs[q]).hasRoom = false) :
    Settles s held taken none qs := by
  refine ⟨h.config, h.resv, h.occupancy, h.bound, fun x _ hl hr => h.room x ?_ hl hr⟩
  rintro ⟨⟩
  rw [hq] at hr
  cases hr

/-- Validity rests on the configuration of the queues (02 R25). -/
theorem Settles.copyValid_results {s : State} {held taken freed : Option QueueId} {qs : Vector Queue 8}
    (h : Settles s held taken freed qs) (hp : Nat) (c : DescCopy) :
    copyValid (s.results qs hp) c = copyValid s c := by
  unfold copyValid
  rw [State.results_queue, (h.config _).1]
  rfl

/-- A request that succeeds takes a reservation in a queue with room (06 R107). A return and a request in one
queue leave its room as it was (03 R53). -/
theorem Settles.take {s : State} {held freed : Option QueueId} {qs : Vector Queue 8}
    (h : Settles s held none freed qs) (hf : freed = none ∨ freed = held) (q : QueueId)
    (room : (qs[q]).hasRoom = true) :
    Settles s held (some q) (if freed = some q then none else freed)
      (qs.set q { qs[q] with resv := (qs[q]).resv + 1 }) := by
  have hq (x : QueueId) : (qs.set q { qs[q] with resv := (qs[q]).resv + 1 })[x] =
      if x = q then { qs[q] with resv := (qs[q]).resv + 1 } else qs[x] :=
    (s.results qs 0).queue_results_set q x _
  have hroom := of_decide_eq_true room
  refine ⟨fun x => ?_, fun x => ?_, fun x => ?_, fun x hb => ?_, fun x hx hl hr => ?_⟩
  · rw [hq]; split
    · next hxq => subst hxq; exact h.config x
    · exact h.config x
  · have hv := h.resv x
    rw [hq]; split
    · next hxq => subst hxq; simpa using hv
    · next hxq => simpa [Ne.symm hxq] using hv
  · rw [hq]; split
    · next hxq => subst hxq; exact h.occupancy x
    · exact h.occupancy x
  · rw [hq]; split
    · next hxq => subst hxq; simp only [Queue.occupancy] at *; omega
    · exact h.bound x hb
  · rw [hq] at hr
    by_cases hxq : x = q
    · subst hxq
      rw [if_pos rfl] at hr
      by_cases hfx : freed = some x
      · have hheld : held = some x := by
          rcases hf with hf | hf
          · rw [hf] at hfx; simp at hfx
          · rw [← hf, hfx]
        have hv := h.resv x
        have ho := h.occupancy x
        have hquota := (h.config x).1
        have hr' : (qs[x]).occupancy + ((qs[x]).resv + 1) < (qs[x]).quota := of_decide_eq_true hr
        simp only [hheld, if_true, reduceCtorEq, if_false, Nat.add_zero] at hv
        exact decide_eq_true (by omega)
      · exact h.room x hfx hl room
    · rw [if_neg hxq] at hr
      refine h.room x (fun hfx => hx ?_) hl hr
      rw [hfx]
      simp [hxq]

end Sys2Proof.Machine
end

section
/-! What the engine can do: the moves of the run pool, the ports and the counts, each with the conditions
under which the model makes it, and events, which are a move and the grant decisions that it leads to. Every
law over the engine is proved once per move. -/

namespace Sys2Proof.Machine

/-- `P'` is port record `P` left without a run: cleared to a resting state, in a gap, left by its gap, freed in
its gap, finishing a cut byte (04 R75; 05 R96, R97, R100, R101). -/
inductive PortRec.Vacates (P : PortRec) : PortRec → Prop
  | cleared (st : PortState) (h : st = .off ∨ st = .idle ∨ st = .halted) :
    Vacates P { P with state := st, attached := none, interval := none, cut := .none, frame := none }
  | gap (g : Nat) (h : P.state = .shifting ∨ P.state = .await) :
    Vacates P { P with
      state := .gap, attached := none, interval := some g, cut := .none, frame := none }
  | left (st : PortState) (hs : st = .off ∨ st = .idle) (h : P.state = .gap) :
    Vacates P { P with state := st, attached := none, interval := none, cut := .none }
  | inGap (h : P.state = .gap) : Vacates P { P with attached := none }
  | cutAt (c : Cut) (f : Frame) (hc : c ≠ .none) (h : P.state = .shifting) (hf : P.frame = some f)
      (hb : P.attached ≠ none → insideByte f = true) :
    Vacates P { P with attached := none, cut := c }

theorem PortRec.vacates_gapAfter {P : PortRec} (g : Nat)
    (h : P.state = .shifting ∨ P.state = .await) : P.Vacates (P.gapAfter g) := by
  by_cases hg : g = 0
  · have : P.gapAfter g = { P with
        state := if P.enable then .idle else .off, attached := none, interval := none, cut := .none,
        frame := none } := by simp [PortRec.gapAfter, hg]
    rw [this]
    exact .cleared _ (by cases P.enable <;> simp)
  · have : P.gapAfter g = { P with
        state := .gap, attached := none, interval := some g, cut := .none, frame := none } := by
      simp [PortRec.gapAfter, hg]
    rw [this]
    exact .gap g h

/-- The step of record `r` is complete in record `r'`, and the step limit is not reached (03 R49). -/
def StepTaken (s : State) (r r' : Run) : Prop :=
  r'.steps = satInc r.steps
    ∧ ¬((s.trigger r.source).stepLimit ≠ 0 ∧ (s.trigger r.source).stepLimit = r'.steps)

/-- A reservation returned in the queue `freed` leads the ports that wait on it (04 R69). -/
def ReturnLeads (led : Port → Bool) (freed : Option QueueId) (t : State) : Prop :=
  ∀ q x, freed = some q → waits t q x = true → led x = true

/-- The run of an admitted event of source `src` (01 R12, 02 R22, 03 R40). -/
def admittedRun (s : State) (src : Source) : Run :=
  let e := s.trigger src
  let c := fetchCopy s.desc e.firstDesc
  { state := .pending, source := src, tier := e.tier, trigTime := s.timestamp, desc := e.firstDesc,
    copy := c, steps := 0, retries := BitVec.ofNat 2 (copyRetries c),
    port := some (targetPort s.targets (copyTarget c)), resv := none, mark := false, capture := [] }

/-- The run `r` put into slot `n` and at the tail of its tier queue on port `p` (04 R66). -/
def queuedRun (s : State) (p : Port) (n : Slot) (r : Run) : State :=
  (s.setRun n r).setPort p ((s.port p).tailed r.tier n)

/-- One live run more at source `src`. -/
def oneMore (s : State) (src : Source) : State :=
  s.setTrigger src { s.trigger src with live := (s.trigger src).live + 1 }

/-- The run of slot `n` gone (03 R59): the slot FREE, one live run fewer at its source. -/
def runGone (s : State) (n : Slot) : State :=
  (s.setTrigger (s.run n).source
    { s.trigger (s.run n).source with live := (s.trigger (s.run n).source).live - 1 }).setRun n freeRun

@[simp] theorem runGone_setPort (s : State) (n : Slot) (p : Port) (P : PortRec) :
    runGone (s.setPort p P) n = (runGone s n).setPort p P := rfl
@[simp] theorem runGone_port (s : State) (n : Slot) (p : Port) :
    (runGone s n).port p = s.port p := rfl
@[simp] theorem runGone_queue (s : State) (n : Slot) (q : QueueId) :
    (runGone s n).queue q = s.queue q := rfl
@[simp] theorem runGone_targets (s : State) (n : Slot) : (runGone s n).targets = s.targets := rfl
@[simp] theorem runGone_desc (s : State) (n : Slot) : (runGone s n).desc = s.desc := rfl

/-- The moves of the engine. `led` names ports that the event leads to grant decisions. -/
inductive Move (led : Port → Bool) : State → State → Prop
  /-- A miss (01 R13). -/
  | missed (s : State) (src : Source) (cause : MissCause) : Move led s (missed s src cause)
  /-- An admitted event with a valid copy (01 R12, 02 R26). -/
  | admitted (s : State) (src : Source) (n : Slot)
      (below : (s.trigger src).live ≠ (s.trigger src).limit.toNat)
      (free : (s.run n).state = .free)
      (valid : copyValid s (fetchCopy s.desc (s.trigger src).firstDesc) = true)
      (leads : led (targetPort s.targets
        (copyTarget (fetchCopy s.desc (s.trigger src).firstDesc))) = true) :
    Move led s (queuedRun (oneMore s src)
      (targetPort s.targets (copyTarget (fetchCopy s.desc (s.trigger src).firstDesc))) n
      (admittedRun s src))
  /-- An admitted event with an invalid copy (02 R27). -/
  | rejected (s : State) (n : Slot) (q : QueueId) (rec : Record) (free : (s.run n).state = .free) :
    Move led s ((posted s q rec false).setRun n freeRun)
  /-- The end of the run attached to port `p` (03 R59). -/
  | ended (s : State) (p : Port) (n : Slot) (P : PortRec) (freed : Option QueueId)
      (qs : Vector Queue 8) (hp : Nat)
      (att : (s.port p).attached = some n) (queues : Settles s (s.run n).resv none freed qs)
      (port : (s.port p).Vacates P) (idle : P.state = .idle → led p = true)
      (ret : ReturnLeads led freed ((runGone (s.results qs hp) n).setPort p P)) :
    Move led s ((runGone (s.results qs hp) n).setPort p P)
  /-- A re-queue at an advance, or a retry (03 R46, R54). -/
  | requeued (s : State) (p p' : Port) (n : Slot) (r : Run) (P : PortRec) (freed : Option QueueId)
      (qs : Vector Queue 8) (hp : Nat)
      (att : (s.port p).attached = some n) (unmarked : (s.run n).mark = false)
      (queues : Settles s (s.run n).resv none freed qs)
      (run : r = { s.run n with
        state := .pending, desc := r.desc, copy := r.copy, steps := r.steps, retries := r.retries,
        port := some p', resv := none, capture := [] })
      (target : (copyValid s r.copy = true ∧ p' = targetPort s.targets (copyTarget r.copy)
          ∧ StepTaken s (s.run n) r)
        ∨ (r.copy = (s.run n).copy ∧ p' = p ∧ r.steps = (s.run n).steps))
      (port : ((queuedRun (s.results qs hp) p' n r).port p).Vacates P)
      (leads : led p' = true) (idle : P.state = .idle → led p = true)
      (ret : ReturnLeads led freed ((queuedRun (s.results qs hp) p' n r).setPort p P)) :
    Move led s ((queuedRun (s.results qs hp) p' n r).setPort p P)
  /-- A KEEP continuation (03 R53): the port in its gap, or the kept frame started. -/
  | kept (s : State) (p : Port) (n : Slot) (r : Run) (P : PortRec) (freed : Option QueueId)
      (qs : Vector Queue 8) (hp : Nat)
      (att : (s.port p).attached = some n) (unmarked : (s.run n).mark = false)
      (queues : Settles s (s.run n).resv r.resv freed qs)
      (run : r = { s.run n with
        state := .active, desc := r.desc, copy := r.copy, steps := r.steps, retries := r.retries,
        resv := r.resv, capture := [] })
      (reserve : r.resv = if (s.queue (copyQueue r.copy)).policy = .lossless then
        some (copyQueue r.copy) else none)
      (valid : copyValid s r.copy = true) (target : targetPort s.targets (copyTarget r.copy) = p)
      (taken : StepTaken s (s.run n) r)
      (port : (∃ g, P = (s.port p).keptGap g ∧ ((s.port p).state = .shifting
          ∨ (s.port p).state = .await))
        ∨ P = (s.port p).frameStarted s.targets n r.copy)
      (ret : ReturnLeads led freed (((s.results qs hp).setRun n r).setPort p P)) :
    Move led s (((s.results qs hp).setRun n r).setPort p P)
  /-- The frame of a kept run starts (05 R97). -/
  | framed (s : State) (p : Port) (n : Slot) (att : (s.port p).attached = some n)
      (gap : (s.port p).state = .gap) :
    Move led s ((s.setRun n { s.run n with capture := [] }).setPort p
      ((s.port p).frameStarted s.targets n (s.run n).copy))
  /-- A run enters its ready wait (03 R44). -/
  | awaits (s : State) (p : Port) (n : Slot) (att : (s.port p).attached = some n)
      (shifting : (s.port p).state = .shifting) : Move led s (awaiting s p n)
  /-- A port without a run moves on (05 R97, R101). -/
  | vacated (s : State) (p : Port) (P : PortRec) (att : (s.port p).attached = none)
      (port : (s.port p).Vacates P) (idle : P.state = .idle → led p = true) :
    Move led s (s.setPort p P)
  /-- A port between OFF, IDLE and HALTED (04 R76, 05 R98). -/
  | switched (s : State) (p : Port) (st : PortState) (dest : st = .off ∨ st = .idle)
      (resting : (s.port p).state = .off ∨ (s.port p).state = .idle ∨ (s.port p).state = .halted)
      (idle : st = .idle → led p = true) :
    Move led s (s.setPort p { s.port p with state := st })
  /-- A transmit byte begins (02 R33). -/
  | sent (s : State) (p : Port) (n : Slot) (f : Frame) (b : Byte)
      (att : (s.port p).attached = some n) (frame : (s.port p).frame = some f)
      (more : f.sent.length < copyTxLen (s.run n).copy) :
    Move led s (s.setPort p { s.port p with
      frame := some { f.reached (launchPoint f.mode (8 * f.sent.length)) with
        sent := f.sent ++ [b] } })
  /-- A receive byte is sampled (03 R43). -/
  | received (s : State) (p : Port) (n : Slot) (f : Frame) (b : Byte)
      (att : (s.port p).attached = some n) (frame : (s.port p).frame = some f)
      (more : (s.run n).capture.length < copyRxLen (s.run n).copy) :
    Move led s ((s.setRun n { s.run n with capture := (s.run n).capture ++ [b] }).setPort p
      { s.port p with frame := some (f.reached
          (samplePoint f.mode f.delayed (8 * (f.txLen + (s.run n).capture.length) + 7))) })
  /-- A PENDING run ends ABORTED (01 R16, 03 R63). -/
  | dropped (s : State) (n : Slot) (pending : (s.run n).state = .pending) :
    Move led s (endPending n s)
  /-- An attached run is marked (01 R16). -/
  | marked (s : State) (n : Slot) (att : (s.run n).isAttached = true) :
    Move led s (s.setRun n { s.run n with mark := true })
  /-- The run in slot `n` is granted on port `p` (04 R70). -/
  | granted (s : State) (p : Port) (t : Tier) (n : Slot) (contested : Bool)
      (idle : (s.port p).state = .idle) (queued : n ∈ (s.port p).tierQueue t)
      (elig : eligible s n = true) : Move led s (granted s p t n contested)
  /-- Line detectors, timer counts and the model's own count of open orders. -/
  | counted (s : State) (ls : Vector Line 8) (ts : Vector Timer 4) (k : Nat)
      (timers : ∀ j : TimerId, (ts[j]).reload = (s.timer j).reload ∧ (ts[j]).mode = (s.timer j).mode) :
    Move led s { s with lines := ls, timers := ts, raceCount := k }

/-- An event of the engine: a move, and the grant decisions that it leads to (04 R69-R71). -/
def Event (s t : State) : Prop := ∃ led m, Move led s m ∧ Decided led m t

/-- Events of the engine, one after the other. -/
def Events : State → State → Prop := Relation.ReflTransGen Event

/-- No port is led to a decision, and nothing is decided. -/
theorem decided_none (s : State) : Decided (fun _ => false) s s :=
  ⟨[], s.raceCount, by simp, fun _ => rfl, rfl⟩

theorem Move.event {s t : State} (h : Move (fun _ => false) s t) : Event s t :=
  ⟨_, t, h, decided_none t⟩

theorem Move.events {s t : State} (h : Move (fun _ => false) s t) : Events s t := .single h.event

/-- A move followed by the decisions of the ports that it leads. -/
theorem Move.decide {led : Port → Bool} {s t : State} (h : Move led s t) :
    Events s (decideWhere led t) :=
  .single ⟨led, t, h, decideWhere_decided led t⟩

theorem Events.refl (s : State) : Events s s := Relation.ReflTransGen.refl

theorem Events.trans {s t u : State} (h : Events s t) (h' : Events t u) : Events s u :=
  Relation.ReflTransGen.trans h h'

/-- Events in a fold. -/
theorem events_foldl {α : Type} (f : State → α → State) (h : ∀ s a, Events s (f s a))
    (l : List α) (s : State) : Events s (l.foldl f s) := by
  induction l generalizing s with
  | nil => exact .refl s
  | cons a l ih => exact (h s a).trans (ih _)

/-- All that one grant decision can do, with the queue of the granted run. -/
theorem decision_eq_self_or_granted (p : Port) (s : State) :
    decision s p = s ∨ ∃ t n contested, (s.port p).state = .idle ∧ n ∈ (s.port p).tierQueue t
      ∧ eligible s n = true ∧ decision s p = granted s p t n contested := by
  rw [← grantDecision_eq]
  by_cases hi : (s.port p).state = .idle
  · simp only [grantDecision, hi, if_true]
    split
    · exact .inl rfl
    · next t k h =>
      right
      refine ⟨t, k, _, trivial, ?_, ?_, grant_eq_granted p t k _ s⟩ <;>
        rcases chooseTier_mem h with ⟨rfl, hf⟩ | ⟨rfl, hf⟩
      · exact List.mem_of_find?_eq_some hf
      · exact List.mem_of_find?_eq_some hf
      · exact List.find?_some hf
      · exact List.find?_some hf
  · exact .inl (by simp only [grantDecision, hi, if_false])

/-- The decisions that an event leads to are moves. -/
theorem Decided.moves {led : Port → Bool} {m t : State} (h : Decided led m t) :
    Relation.ReflTransGen (Move led) m t := by
  obtain ⟨l, k, -, -, rfl⟩ := h
  have hk : Move led m { m with raceCount := k } := .counted m m.lines m.timers k fun _ => ⟨rfl, rfl⟩
  refine .head hk ?_
  generalize ({ m with raceCount := k } : State) = u
  induction l generalizing u with
  | nil => exact .refl
  | cons p l ih =>
    refine Relation.ReflTransGen.trans ?_ (ih _)
    rcases decision_eq_self_or_granted p u with h | ⟨t, n, c, hi, hq, he, h⟩
    · rw [h]
    · rw [h]
      exact .single (.granted u p t n c hi hq he)

end Sys2Proof.Machine
end

section
/-! Trigger events as events of the engine (01 R12, 02 R27, 03 R40). -/

namespace Sys2Proof.Machine

/-- The state in which an admitted run of source `src` has taken slot `n` and fetched its first copy. -/
def admittedState (s : State) (src : Source) (n : Slot) : State :=
  (oneMore s src).setRun n
    { admittedRun s src with retries := 0, port := none }

theorem copyValid_admittedState (s : State) (src : Source) (n : Slot) :
    copyValid (admittedState s src n) ((admittedState s src n).run n).copy =
      copyValid s (fetchCopy s.desc (s.trigger src).firstDesc) := by
  rw [admittedState, State.setRun_run_self]
  rfl

theorem makeCurrent_startRun (src : Source) (n : Slot) (s : State) :
    makeCurrent n (s.trigger src).firstDesc
      ((s.setTrigger src { s.trigger src with live := (s.trigger src).live + 1 }).setRun n
        { freeRun with
          state := .pending, source := src, tier := (s.trigger src).tier, trigTime := s.timestamp })
      = admittedState s src n := by
  simp [makeCurrent, admittedState, admittedRun, oneMore, freeRun]

/-- An admitted event with a valid copy queues the run, and its port decides (02 R26, 04 R69). -/
theorem startRun_of_valid {src : Source} (n : Slot) {s : State}
    (valid : copyValid s (fetchCopy s.desc (s.trigger src).firstDesc) = true) :
    startRun src n s =
      decideWhere (fun x => x == targetPort s.targets
          (copyTarget (fetchCopy s.desc (s.trigger src).firstDesc)))
        (queuedRun (oneMore s src)
          (targetPort s.targets (copyTarget (fetchCopy s.desc (s.trigger src).firstDesc))) n
          (admittedRun s src)) := by
  have hv := (copyValid_admittedState s src n).trans valid
  have hs : enqueueRun n (loadRetries n (admittedState s src n)) =
      queuedRun (oneMore s src)
        (targetPort s.targets (copyTarget (fetchCopy s.desc (s.trigger src).firstDesc))) n
        (admittedRun s src) := by
    simp [enqueueRun_eq, loadRetries, admittedState, admittedRun, oneMore, queuedRun]
  simp only [startRun, makeCurrent_startRun, hv, if_true, hs]
  congr 1
  funext x
  simp [queuedRun, admittedRun]

/-- A run that ends in its own event leaves its source's count as it was. -/
theorem freeSlot_oneMore (u : State) (n : Slot) (r : Run) :
    freeSlot n ((oneMore u r.source).setRun n r) = u.setRun n freeRun := by
  simp only [freeSlot_eq, oneMore, State.setRun_run_self, State.setRun_trigger,
    State.setTrigger_trigger_self, Nat.add_sub_cancel, State.setRun_setTrigger,
    State.setTrigger_setTrigger, State.setRun_setRun]
  exact congrArg (State.setRun · n freeRun) (State.setTrigger_self u r.source)

/-- The record of an admitted event with an invalid copy (02 R27). -/
def rejectedRecord (s : State) (src : Source) (n : Slot) : Record :=
  { seq := 0, status := .badDescriptor, source := src, slot := n, desc := (s.trigger src).firstDesc,
    tag := copyTag (fetchCopy s.desc (s.trigger src).firstDesc), trigTime := s.timestamp,
    endTime := s.timestamp, data := [] }

/-- An admitted event with an invalid copy leaves one record, and its slot FREE (02 R27). -/
theorem startRun_of_invalid {src : Source} (n : Slot) {s : State}
    (invalid : copyValid s (fetchCopy s.desc (s.trigger src).firstDesc) = false) :
    startRun src n s =
      (posted s (copyQueue (fetchCopy s.desc (s.trigger src).firstDesc))
        (rejectedRecord s src n) false).setRun n freeRun := by
  have hv := (copyValid_admittedState s src n).trans invalid
  have hr : formRecord (admittedState s src n) n .badDescriptor [] = rejectedRecord s src n := by
    simp [formRecord, admittedState, admittedRun, rejectedRecord, oneMore]
  simp only [startRun, makeCurrent_startRun, hv, Bool.false_eq_true, if_false, postInvalid, hr,
    postFree_eq_posted]
  rw [admittedState, State.setRun_run_self]
  exact freeSlot_oneMore (posted s (copyQueue (fetchCopy s.desc (s.trigger src).firstDesc))
    (rejectedRecord s src n) false) n { admittedRun s src with retries := 0, port := none }

theorem triggerEvent_events (src : Source) (s : State) : Events s (triggerEvent src s) := by
  rcases triggerEvent_cases src s with ⟨-, h⟩ | ⟨-, -, h⟩ | ⟨-, -, -, h⟩ | ⟨-, below, n, free, -, h⟩ <;>
    rw [h]
  · exact .refl s
  · exact (Move.missed s src .limit).events
  · exact (Move.missed s src .pool).events
  · cases valid : copyValid s (fetchCopy s.desc (s.trigger src).firstDesc) with
    | true =>
      rw [startRun_of_valid n valid]
      exact (Move.admitted s src n below free valid (by simp)).decide
    | false =>
      rw [startRun_of_invalid n valid]
      exact (Move.rejected s n _ _ free).events

end Sys2Proof.Machine
end

section
/-! The ends, advances and retries of runs in closed form, and as events of the engine (chapter 3). -/

namespace Sys2Proof.Machine

theorem runGone_setRun {s : State} {n : Slot} {r : Run} (h : r.source = (s.run n).source) :
    runGone (s.setRun n r) n = runGone s n := by
  simp [runGone, h]

theorem freeSlot_eq_runGone (n : Slot) (s : State) : freeSlot n s = runGone s n := freeSlot_eq n s

theorem runGone_posted (s : State) (n : Slot) (q : QueueId) (rec : Record) (held : Bool) :
    runGone (posted s q rec held) n = posted (runGone s n) q rec held := rfl

theorem runGone_postHeld (n : Slot) (rec : Record) (s : State) :
    runGone (postHeld n rec s) n = posted (runGone s n) (postQueue s n) rec (converts s n) := by
  rw [postHeld_eq, runGone_setRun (by rfl)]
  rfl

@[simp] theorem postHeld_port (n : Slot) (rec : Record) (s : State) (p : Port) :
    (postHeld n rec s).port p = s.port p := by
  rw [postHeld_eq]
  rfl

@[simp] theorem posted_port (s : State) (q : QueueId) (rec : Record) (held : Bool) (p : Port) :
    (posted s q rec held).port p = s.port p := rfl

/-- The end of an attached run whose port is left as it is (03 R58, R62). -/
theorem freeSlot_detach_postHeld (p : Port) (n : Slot) (rec : Record) (s : State) :
    freeSlot n (detach p (postHeld n rec s)) =
      (posted (runGone s n) (postQueue s n) rec (converts s n)).setPort p
        { s.port p with attached := none } := by
  rw [← runGone_postHeld, freeSlot_eq_runGone, detach, runGone_setPort, postHeld_port]

theorem gapTicks_congr {s t : State} {p : Port} (hp : (t.port p).clockTarget = (s.port p).clockTarget)
    (ht : t.targets = s.targets) : gapTicks t p = gapTicks s p := by
  simp only [gapTicks, hp, ht]

/-- The run of slot `n` gone and its port in its gap (03 R59, 05 R96). -/
theorem freeSlot_enterGap_detach (p : Port) (n : Slot) (u : State) :
    freeSlot n (enterGap p (detach p u)) =
      (runGone u n).setPort p ((u.port p).gapAfter (gapTicks u p)) := by
  rw [enterGap_detach, freeSlot_eq]
  rfl

/-- The end of an attached run at its step's end, its port in its gap (03 R51, R57, R59). -/
theorem endAtStep_eq (p : Port) (n : Slot) (st : Status) (s : State) :
    endAtStep p n st s = decideWhere (fun x => x == p)
      ((posted (runGone s n) (postQueue s n) (formRecord s n st (s.run n).capture)
        (converts s n)).setPort p ((s.port p).gapAfter (gapTicks s p))) := by
  have hg : gapTicks (postHeld n (formRecord s n st (s.run n).capture) s) p = gapTicks s p := by
    rw [postHeld_eq]
    rfl
  rw [endAtStep, freeSlot_enterGap_detach, runGone_postHeld, postHeld_port, hg]

/-- The end of the run attached to port `p`, its record posted, in any form of its port without a run. -/
theorem Move.endedPosting {led : Port → Bool} {s : State} {p : Port} {n : Slot} (rec : Record)
    {P : PortRec} (att : (s.port p).attached = some n) (port : (s.port p).Vacates P)
    (idle : P.state = .idle → led p = true) :
    Move led s ((posted (runGone s n) (postQueue s n) rec (converts s n)).setPort p P) :=
  .ended s p n P none _ (posted s (postQueue s n) rec (converts s n)).headPtr att
    (postHeld_settles n rec s) port idle (by simp [ReturnLeads])

/-- The run of slot `n` with `k` steps completed. -/
def State.withSteps (s : State) (n : Slot) (k : Byte) : State :=
  s.setRun n { s.run n with steps := k }

section
variable (s : State) (n : Slot) (k : Byte)

@[simp] theorem State.withSteps_self : s.withSteps n (s.run n).steps = s := State.setRun_self s n
@[simp] theorem State.withSteps_port (p : Port) : (s.withSteps n k).port p = s.port p := rfl
@[simp] theorem State.withSteps_run :
    (s.withSteps n k).run n = { s.run n with steps := k } := State.setRun_run_self s n _
@[simp] theorem runGone_withSteps : runGone (s.withSteps n k) n = runGone s n := runGone_setRun rfl
@[simp] theorem postQueue_withSteps : postQueue (s.withSteps n k) n = postQueue s n := by
  simp [postQueue]
@[simp] theorem converts_withSteps : converts (s.withSteps n k) n = converts s n := by
  simp only [converts, State.withSteps_run]
  rfl
@[simp] theorem gapTicks_withSteps (p : Port) : gapTicks (s.withSteps n k) p = gapTicks s p := rfl
@[simp] theorem formRecord_withSteps (st : Status) (data : List Byte) :
    formRecord (s.withSteps n k) n st data = formRecord s n st data := by
  simp only [formRecord, State.withSteps_run]
  rfl

end

/-- The end of a run at its step's end is an event, however many steps its record counts by then. -/
theorem endAtStep_events {s : State} {p : Port} {n : Slot} (st : Status) (k : Byte)
    (att : (s.port p).attached = some n)
    (state : (s.port p).state = .shifting ∨ (s.port p).state = .await) :
    Events s (endAtStep p n st (s.withSteps n k)) := by
  rw [endAtStep_eq]
  simp only [runGone_withSteps, postQueue_withSteps, converts_withSteps, formRecord_withSteps,
    State.withSteps_port, gapTicks_withSteps, State.withSteps_run]
  exact (Move.endedPosting _ att (PortRec.vacates_gapAfter _ state) (by simp)).decide

/-- The bytes of a run's record after its advance to descriptor `d` (02 R22, 03 R52). -/
def Run.advanced (r : Run) (m : Mem) (d : DescId) : Run := { r with desc := d, copy := fetchCopy m d }

/-- An advance to an invalid copy, in closed form (02 R27, 03 R52). `u` is the state in which the step has
been settled, but for the run's own record `r`. -/
theorem advance_of_invalid {p : Port} {n : Slot} {s u : State} {r : Run}
    (settle : settleStep n s = u.setRun n r) (source : r.source = (u.run n).source)
    (invalid : copyValid u (fetchCopy u.desc (nextDesc s n)) = false) :
    advance p n s =
      let c := fetchCopy u.desc (nextDesc s n)
      let rec' := formRecord (u.setRun n (r.advanced u.desc (nextDesc s n))) n .badDescriptor []
      let t := (posted (runGone u n) (copyQueue c) rec' false).setPort p
        ((u.port p).gapAfter (gapTicks u p))
      decideWhere (fun x => x == p || returnLeads t (returnedBy (s.run n)) x) t := by
  have hcur : makeCurrent n (nextDesc s n) (settleStep n s) =
      u.setRun n (r.advanced u.desc (nextDesc s n)) := by
    simp [makeCurrent, settle, Run.advanced]
  have hinv : copyValid (u.setRun n (r.advanced u.desc (nextDesc s n)))
      (r.advanced u.desc (nextDesc s n)).copy = false := invalid
  simp only [advance, show Fin.ofNat 128 (copyNext (s.run n).copy).toNat = nextDesc s n from rfl, hcur,
    State.setRun_run_self, hinv, Bool.false_eq_true, if_false, freeSlot_enterGap_detach, postInvalid,
    postFree_eq_posted]
  rw [runGone_posted, runGone_setRun (r := r.advanced u.desc (nextDesc s n)) source]
  rfl

@[simp] theorem PortRec.tailed_attached (P : PortRec) (t : Tier) (n : Slot) :
    (P.tailed t n).attached = P.attached := by cases t <;> rfl
@[simp] theorem PortRec.tailed_state (P : PortRec) (t : Tier) (n : Slot) :
    (P.tailed t n).state = P.state := by cases t <;> rfl
@[simp] theorem PortRec.tailed_clockTarget (P : PortRec) (t : Tier) (n : Slot) :
    (P.tailed t n).clockTarget = P.clockTarget := by cases t <;> rfl

/-- A detached port that may have got the run itself at its tail enters its gap (03 R46, R54). -/
theorem enterGap_queued_detach (p p' : Port) (n : Slot) (r : Run) (u : State) :
    enterGap p (queuedRun (detach p u) p' n r) =
      (queuedRun u p' n r).setPort p (((queuedRun u p' n r).port p).gapAfter (gapTicks u p)) := by
  have hg : gapTicks (queuedRun (detach p u) p' n r) p = gapTicks u p := by
    refine gapTicks_congr ?_ rfl
    by_cases h : p = p'
    · subst h; simp [queuedRun, detach]
    · simp [queuedRun, detach, State.setPort_port_of_ne _ h]
  have ha : ((queuedRun (detach p u) p' n r).port p).attached = none := by
    by_cases h : p = p'
    · subst h; simp [queuedRun, detach]
    · simp [queuedRun, detach, State.setPort_port_of_ne _ h]
  rw [enterGap_of_detached ha, hg]
  by_cases h : p = p'
  · subst h
    cases ht : r.tier <;> simp [queuedRun, detach, ht, PortRec.tailed, PortRec.gapAfter]
  · have h' : p' ≠ p := Ne.symm h
    simp only [queuedRun, detach, State.setPort_port_of_ne _ h, State.setPort_port_of_ne _ h',
      State.setRun_port, State.setPort_port_self, State.setPort_setRun, PortRec.gapAfter]
    rw [State.setPort_comm _ h, State.setPort_setPort]

/-- The record of a run that has advanced to a valid copy, its retries loaded (02 R26). -/
def Run.loaded (r : Run) (m : Mem) (d : DescId) : Run :=
  { r with
    desc := d, copy := fetchCopy m d, retries := BitVec.ofNat 2 (copyRetries (fetchCopy m d)) }

/-- The record of a run that is re-queued on port `p` (03 R54). -/
def Run.requeued (r : Run) (p : Port) : Run :=
  { r with state := .pending, port := some p, capture := [] }

/-- The record of a run that is kept on its port with reservation `resv` (03 R53). -/
def Run.kept (r : Run) (resv : Option QueueId) : Run :=
  { r with state := .active, resv := resv, capture := [] }

/-- The first two tests on which a KEEP continuation depends, for a run that advances from state `s` with its
step settled in `u` (03 R53). -/
def keepPossibleIn (s u : State) (p : Port) (n : Slot) : Bool :=
  keepPossible p (copyKeep (s.run n).copy) (fetchCopy u.desc (nextDesc s n)) u

/-- The run that advances from `s` meets all conditions of a KEEP continuation (03 R53). -/
def keptIn (s u : State) (p : Port) (n : Slot) : Bool :=
  keepPossibleIn s u p n && keepHasRoom (fetchCopy u.desc (nextDesc s n)) u

/-- The queue whose return leads ports to decisions after an advance to a valid copy (03 R53). -/
def advanceReturn (s u : State) (p : Port) (n : Slot) : Option QueueId :=
  if keepPossibleIn s u p n
      && returnedBy (s.run n) == some (copyQueue (fetchCopy u.desc (nextDesc s n))) then none
  else returnedBy (s.run n)

/-- An advance to a valid copy continues the run on its port or re-queues it (03 R53, R54). -/
theorem advance_of_valid {p : Port} {n : Slot} {s u : State} {r : Run}
    (settle : settleStep n s = u.setRun n r)
    (valid : copyValid u (fetchCopy u.desc (nextDesc s n)) = true) :
    advance p n s =
      let v := u.setRun n (r.loaded u.desc (nextDesc s n))
      if keptIn s u p n then
        decideWhere (fun x => returnLeads (continueKept p n v) (advanceReturn s u p n) x)
          (continueKept p n v)
      else
        let t := enterGap p (enqueueRun n (detach p v))
        decideWhere (fun x => x == p || some x == (t.run n).port
          || returnLeads t (advanceReturn s u p n) x) t := by
  have hcur : makeCurrent n (nextDesc s n) (u.setRun n r) =
      u.setRun n (r.advanced u.desc (nextDesc s n)) := by
    simp [makeCurrent, Run.advanced]
  have hval : copyValid (u.setRun n (r.advanced u.desc (nextDesc s n)))
      (r.advanced u.desc (nextDesc s n)).copy = true := valid
  have hload : loadRetries n (u.setRun n (r.advanced u.desc (nextDesc s n))) =
      u.setRun n (r.loaded u.desc (nextDesc s n)) := by
    simp [loadRetries, Run.advanced, Run.loaded]
  simp only [advance, show Fin.ofNat 128 (copyNext (s.run n).copy).toNat = nextDesc s n from rfl,
    settle, hcur, State.setRun_run_self, hval, if_true, hload]
  rfl

/-- The re-queue of a detached run, its port in its gap (03 R54). -/
theorem enterGap_enqueueRun_detach (p : Port) (n : Slot) (u : State) (r : Run) :
    enterGap p (enqueueRun n (detach p (u.setRun n r))) =
      let p' := targetPort u.targets (copyTarget r.copy)
      let v := queuedRun u p' n (r.requeued p')
      v.setPort p ((v.port p).gapAfter (gapTicks u p)) := by
  rw [← enterGap_queued_detach, enqueueRun_eq]
  congr 1
  simp only [queuedRun, detach, Run.requeued, State.setRun_run_self, State.setPort_run,
    State.setPort_setRun, State.setRun_setRun, State.setRun_port, State.setPort_targets,
    State.setRun_targets]
  rfl

/-- An advance that re-queues its run, in closed form (03 R54). -/
theorem advance_of_requeued {p : Port} {n : Slot} {s u : State} {r : Run}
    (settle : settleStep n s = u.setRun n r)
    (valid : copyValid u (fetchCopy u.desc (nextDesc s n)) = true)
    (unkept : keptIn s u p n = false) :
    advance p n s =
      let p' := targetPort u.targets (copyTarget (fetchCopy u.desc (nextDesc s n)))
      let v := queuedRun u p' n ((r.loaded u.desc (nextDesc s n)).requeued p')
      let t := v.setPort p ((v.port p).gapAfter (gapTicks u p))
      decideWhere (fun x => x == p || x == p' || returnLeads t (advanceReturn s u p n) x) t := by
  rw [advance_of_valid settle valid]
  simp only [unkept, Bool.false_eq_true, if_false, enterGap_enqueueRun_detach]
  congr 1
  funext x
  simp [queuedRun, Run.requeued, Run.loaded]

/-- The reservation that a kept run takes for its next step (03 R53, 06 R107). -/
def keptReservation (u : State) (c : DescCopy) : Option QueueId :=
  if (u.queue (copyQueue c)).policy = .lossless then some (copyQueue c) else none

/-- The queues after a kept run has taken its reservation. -/
def keptQueues (u : State) (c : DescCopy) : Vector Queue 8 :=
  if (u.queue (copyQueue c)).policy = .lossless then
    u.queues.set (copyQueue c)
      { u.queue (copyQueue c) with resv := (u.queue (copyQueue c)).resv + 1 }
  else u.queues

theorem takeResv_setRun (n : Slot) (q : QueueId) (u : State) (r : Run) :
    takeResv n q (u.setRun n r) =
      (u.results (u.queues.set q { u.queue q with resv := (u.queue q).resv + 1 }) u.headPtr).setRun n
        { r with resv := some q } := by
  simp only [takeResv, State.setRun_run_self, State.setRun_setRun]
  rfl

/-- The request of a kept run (06 R107), and its record for the next step. -/
theorem continueKept_request {p : Port} {n : Slot} {u : State} {r : Run} (free : r.resv = none) :
    continueKept p n (u.setRun n r) =
      enterGap p ((u.results (keptQueues u r.copy) u.headPtr).setRun n
        (r.kept (keptReservation u r.copy))) := by
  by_cases hl : (u.queue (copyQueue r.copy)).policy = .lossless
  · simp only [continueKept, State.setRun_run_self, State.setRun_queue, if_pos hl, takeResv_setRun,
      State.setRun_setRun, keptQueues, keptReservation, Run.kept]
  · simp only [continueKept, State.setRun_run_self, State.setRun_queue, if_neg hl, State.setRun_setRun,
      keptQueues, keptReservation, Run.kept, ← free]
    rfl

/-- A kept run's port in its gap, or the kept frame started where that gap is 0 (03 R53, 05 R97). -/
theorem continueKept_eq {p : Port} {n : Slot} {u : State} {r : Run} (unmarked : r.mark = false)
    (free : r.resv = none) (att : (u.port p).attached = some n) :
    continueKept p n (u.setRun n r) =
      ((u.results (keptQueues u r.copy) u.headPtr).setRun n
          (r.kept (keptReservation u r.copy))).setPort p
        (if gapTicks u p = 0 then (u.port p).frameStarted u.targets n r.copy
         else (u.port p).keptGap (gapTicks u p)) := by
  have hm : (((u.results (keptQueues u r.copy) u.headPtr).setRun n
      (r.kept (keptReservation u r.copy))).run n).mark = false := by
    simpa [Run.kept] using unmarked
  rw [continueKept_request free, enterGap_of_kept (s := (u.results (keptQueues u r.copy)
    u.headPtr).setRun n (r.kept (keptReservation u r.copy))) att hm]
  have hg : gapTicks ((u.results (keptQueues u r.copy) u.headPtr).setRun n
    (r.kept (keptReservation u r.copy))) p = gapTicks u p := rfl
  rw [hg]
  split
  · simp only [State.setRun_run_self, State.setRun_setRun]
    rfl
  · rfl

end Sys2Proof.Machine
end

section
/-! Step success and its decisions as events of the engine (03 R49-R54). -/

namespace Sys2Proof.Machine

/-- The tail entry of a run moves no port. -/
theorem queuedRun_port_state (s : State) (p p' : Port) (n : Slot) (r : Run) :
    ((queuedRun s p' n r).port p).state = (s.port p).state := by
  by_cases h : p = p'
  · subst h; simp [queuedRun]
  · simp [queuedRun, State.setPort_port_of_ne _ h]

theorem returnedBy_withSteps (s : State) (n : Slot) (k : Byte) :
    returnedBy ((s.withSteps n k).run n) = returnedBy (s.run n) := by
  rw [State.withSteps_run]
  rfl

theorem returnLeads_returnLeads {led : Port → Bool} {freed : Option QueueId} {t : State}
    (h : ∀ x, returnLeads t freed x = true → led x = true) : ReturnLeads led freed t := by
  rintro q x rfl hw
  exact h x hw

/-- The settling of a step for a run whose record already counts the step. -/
theorem settleStep_withSteps (s : State) (n : Slot) (k : Byte) :
    ∃ qs hp, Settles s (s.run n).resv none (returnedBy (s.run n)) qs
      ∧ settleStep n (s.withSteps n k) =
        (s.results qs hp).setRun n { s.run n with steps := k, resv := none } := by
  obtain ⟨qs, hp, h, heq⟩ := settleStep_settles n (s.withSteps n k)
  rw [State.withSteps_run] at h
  refine ⟨qs, hp, ⟨h.config, h.resv, h.occupancy, h.bound, h.room⟩, ?_⟩
  rw [heq, State.withSteps_run]
  simp [State.withSteps]

section Advance

variable {s : State} {p : Port} {n : Slot} {k : Byte} {qs : Vector Queue 8} {hp : Nat}
  (att : (s.port p).attached = some n)
  (state : (s.port p).state = .shifting ∨ (s.port p).state = .await)
  (queues : Settles s (s.run n).resv none (returnedBy (s.run n)) qs)
  (settle : settleStep n (s.withSteps n k) =
    (s.results qs hp).setRun n { s.run n with steps := k, resv := none })

include att state queues settle

/-- The end at an advance to an invalid copy is an event (02 R27). -/
theorem advance_events_of_invalid
    (invalid : copyValid s (fetchCopy s.desc (nextDesc (s.withSteps n k) n)) = false) :
    Events s (advance p n (s.withSteps n k)) := by
  rw [advance_of_invalid settle rfl ((queues.copyValid_results hp _).trans invalid)]
  refine (Move.ended s p n _ (returnedBy (s.run n)) _ _ att (queues.postFree hp _ _)
    (PortRec.vacates_gapAfter _ state) (by simp) (returnLeads_returnLeads fun x hx => ?_)).decide
  rw [State.withSteps_run]
  exact Bool.or_eq_true_iff.2 (.inr hx)

omit att state settle in
/-- The ports led to decisions by a return, with the room that it gives or does not give (03 R53). -/
theorem advanceReturn_settles (unkept : keptIn (s.withSteps n k) (s.results qs hp) p n = false) :
    Settles s (s.run n).resv none (advanceReturn (s.withSteps n k) (s.results qs hp) p n) qs := by
  unfold advanceReturn
  rw [State.withSteps_run]
  split
  · next h =>
    obtain ⟨possible, same⟩ := Bool.and_eq_true_iff.1 h
    have full : keepHasRoom (fetchCopy (s.results qs hp).desc (nextDesc (s.withSteps n k) n))
        (s.results qs hp) = false := by
      simpa [keptIn, possible] using unkept
    have returned : returnedBy (s.run n) =
      some (copyQueue (fetchCopy (s.results qs hp).desc (nextDesc (s.withSteps n k) n))) :=
      beq_iff_eq.1 same
    rw [returned] at queues
    exact queues.full (Bool.or_eq_false_iff.1 full).2
  · exact queues

omit att state settle queues in
theorem returnedBy_eq (r : Run) : returnedBy r = none ∨ returnedBy r = r.resv := by
  unfold returnedBy
  split
  · exact .inl rfl
  · exact .inr rfl

omit att state settle in
theorem keptReservation_settles (hp : Nat) (c : DescCopy) :
    keptReservation (s.results qs hp) c =
      if (s.queue (copyQueue c)).policy = .lossless then some (copyQueue c) else none := by
  unfold keptReservation
  rw [State.results_queue, (queues.config _).2.1]

omit att state settle in
/-- The queues after a kept run has settled its step and taken its reservation (03 R53, 06 R107). -/
theorem keptQueues_settles (kept : keptIn (s.withSteps n k) (s.results qs hp) p n = true) :
    Settles s (s.run n).resv
      (keptReservation (s.results qs hp)
        (fetchCopy (s.results qs hp).desc (nextDesc (s.withSteps n k) n)))
      (advanceReturn (s.withSteps n k) (s.results qs hp) p n)
      (keptQueues (s.results qs hp)
        (fetchCopy (s.results qs hp).desc (nextDesc (s.withSteps n k) n))) := by
  obtain ⟨possible, room⟩ := Bool.and_eq_true_iff.1 kept
  unfold advanceReturn keptReservation keptQueues
  rw [possible, Bool.true_and, returnedBy_withSteps]
  generalize fetchCopy (s.results qs hp).desc (nextDesc (s.withSteps n k) n) = c at room ⊢
  by_cases hl : ((s.results qs hp).queue (copyQueue c)).policy = .lossless
  · have hroom : (qs[copyQueue c]).hasRoom = true := by
      refine (Bool.or_eq_true_iff.1 room).resolve_left fun lossy => ?_
      rw [hl] at lossy
      cases lossy
    have take := queues.take (returnedBy_eq _) (copyQueue c) hroom
    simp only [if_pos hl, beq_iff_eq]
    exact take
  · have lossy : (s.queue (copyQueue c)).policy = .lossy := by
      rw [← (queues.config _).2.1]
      cases h : (qs[copyQueue c]).policy
      · rfl
      · exact absurd h hl
    simp only [if_neg hl, beq_iff_eq]
    split
    · next same => exact (same ▸ queues).lossy lossy
    · exact queues

/-- The re-queue at an advance is an event (03 R54). -/
theorem advance_events_of_requeued
    (unmarked : (s.run n).mark = false)
    (taken : ¬((s.trigger (s.run n).source).stepLimit ≠ 0
      ∧ (s.trigger (s.run n).source).stepLimit = k)) (hk : k = satInc (s.run n).steps)
    (valid : copyValid s (fetchCopy s.desc (nextDesc (s.withSteps n k) n)) = true)
    (unkept : keptIn (s.withSteps n k) (s.results qs hp) p n = false) :
    Events s (advance p n (s.withSteps n k)) := by
  rw [advance_of_requeued settle ((queues.copyValid_results hp _).trans valid) unkept]
  refine Move.decide (Move.requeued s p _ n _ _ _ qs hp att unmarked
    (advanceReturn_settles queues unkept) ?run
    (.inl ⟨valid, rfl, hk, taken⟩) (PortRec.vacates_gapAfter _ ?_) (by simp) (by simp)
    (returnLeads_returnLeads fun x hx => Bool.or_eq_true_iff.2 (.inr hx)))
  case run => rfl
  rw [queuedRun_port_state]
  exact state

/-- A KEEP continuation is an event (03 R53). -/
theorem advance_events_of_kept
    (unmarked : (s.run n).mark = false)
    (taken : ¬((s.trigger (s.run n).source).stepLimit ≠ 0
      ∧ (s.trigger (s.run n).source).stepLimit = k)) (hk : k = satInc (s.run n).steps)
    (valid : copyValid s (fetchCopy s.desc (nextDesc (s.withSteps n k) n)) = true)
    (kept : keptIn (s.withSteps n k) (s.results qs hp) p n = true) :
    Events s (advance p n (s.withSteps n k)) := by
  rw [advance_of_valid settle ((queues.copyValid_results hp _).trans valid)]
  simp only [kept, if_true]
  rw [continueKept_eq (by exact unmarked) rfl (by exact att)]
  refine Move.decide (Move.kept s p n _ _
    (advanceReturn (s.withSteps n k) (s.results qs hp) p n) _ _ att unmarked ?queues ?run ?reserve
    valid ?target ⟨hk, taken⟩ ?port (returnLeads_returnLeads fun x hx => hx))
  case run => rfl
  case reserve => exact keptReservation_settles queues hp _
  case target =>
    simp only [keptIn, keepPossibleIn, keepPossible, Bool.and_eq_true, beq_iff_eq] at kept
    exact kept.1.1.2
  case port =>
    by_cases hg : gapTicks (s.results qs hp) p = 0
    · exact .inr (if_pos hg)
    · exact .inl ⟨_, if_neg hg, state⟩
  case queues => exact keptQueues_settles queues kept

end Advance

/-- The successful end at next END, in closed form (03 R50, R59, R60). -/
theorem endSuccessfully_eq {p : Port} {n : Slot} {s u : State} {r : Run}
    (settle : settleStep n s = u.setRun n r) (source : r.source = (u.run n).source) :
    endSuccessfully p n s =
      let t := (runGone u n).setPort p ((u.port p).gapAfter (gapTicks u p))
      fireOnEnd (s.run n).source
        (decideWhere (fun x => x == p || returnLeads t (returnedBy (s.run n)) x) t) := by
  rw [endSuccessfully, settle, freeSlot_enterGap_detach, runGone_setRun source]
  rfl

theorem fireOnEnd_events (src : Source) (s : State) : Events s (fireOnEnd src s) := by
  unfold fireOnEnd
  split
  · exact .refl s
  · exact triggerEvent_events _ s

theorem stepLimitReached_withSteps (s : State) (n : Slot) (k : Byte) :
    stepLimitReached (s.withSteps n k) n =
      ((s.trigger (s.run n).source).stepLimit != 0
        && (s.trigger (s.run n).source).stepLimit == k) := by
  simp only [stepLimitReached, State.withSteps_run]
  rfl

/-- Step success is made of events (03 R49). -/
theorem stepSuccess_events {s : State} {p : Port} {n : Slot} (att : (s.port p).attached = some n)
    (state : (s.port p).state = .shifting ∨ (s.port p).state = .await) :
    Events s (stepSuccess p n s) := by
  have hs : s.setRun n { s.run n with steps := satInc (s.run n).steps } =
    s.withSteps n (satInc (s.run n).steps) := rfl
  obtain ⟨qs, hp, queues, settle⟩ := settleStep_withSteps s n (satInc (s.run n).steps)
  simp only [stepSuccess, hs]
  split
  · exact endAtStep_events _ _ att state
  next unmarked =>
    have unmarked : (s.run n).mark = false := by simpa using unmarked
    split
    · rw [endSuccessfully_eq settle rfl, returnedBy_withSteps]
      refine (Move.decide ?_).trans (fireOnEnd_events _ _)
      exact Move.ended s p n _ _ qs hp att queues (PortRec.vacates_gapAfter _ state) (by simp)
        (returnLeads_returnLeads fun x hx => Bool.or_eq_true_iff.2 (.inr hx))
    · split
      · exact endAtStep_events _ _ att state
      next below =>
        have taken : ¬((s.trigger (s.run n).source).stepLimit ≠ 0
            ∧ (s.trigger (s.run n).source).stepLimit = satInc (s.run n).steps) := by
          simpa [stepLimitReached_withSteps] using below
        cases valid : copyValid s
            (fetchCopy s.desc (nextDesc (s.withSteps n (satInc (s.run n).steps)) n)) with
        | false => exact advance_events_of_invalid att state queues settle valid
        | true =>
          cases kept : keptIn (s.withSteps n (satInc (s.run n).steps)) (s.results qs hp) p n with
          | false => exact advance_events_of_requeued att state queues settle unmarked taken rfl valid kept
          | true => exact advance_events_of_kept att state queues settle unmarked taken rfl valid kept

end Sys2Proof.Machine
end

section
/-! The other events of ports, triggers and counts as events of the engine (chapters 1, 3, 4, 5, 8). -/

namespace Sys2Proof.Machine

/-- The record of a run that retries its step on port `p` (03 R46). -/
def Run.retried (r : Run) (p : Port) : Run :=
  { r with state := .pending, retries := r.retries - 1, port := some p, capture := [] }

/-- A retry, in closed form (03 R46). `u` is the state in which the reservation has been returned, but for the
run's own record `r`. -/
theorem retryStep_eq {p : Port} {n : Slot} {s u : State} {r : Run}
    (ret : returnResv n s = u.setRun n r) :
    retryStep p n s =
      let v := queuedRun u p n (r.retried p)
      let t := v.setPort p ((v.port p).gapAfter (gapTicks u p))
      decideWhere (fun x => x == p || returnLeads t (s.run n).resv x) t := by
  have hv : enterTail p r.tier n (detach p (u.setRun n (r.retried p))) =
      queuedRun (detach p u) p n (r.retried p) := by
    rw [enterTail_eq]
    rfl
  have hr : (u.setRun n r).setRun n (r.retried p) = u.setRun n (r.retried p) :=
    State.setRun_setRun u n r _
  simp only [retryStep, ret, State.setRun_run_self]
  rw [← enterGap_queued_detach, ← hv, ← hr]
  rfl

theorem retryStep_events {s : State} {p : Port} {n : Slot} (att : (s.port p).attached = some n)
    (state : (s.port p).state = .shifting ∨ (s.port p).state = .await)
    (unmarked : (s.run n).mark = false) : Events s (retryStep p n s) := by
  obtain ⟨qs, queues, ret⟩ := returnResv_settles n s
  rw [retryStep_eq ret]
  refine Move.decide (Move.requeued s p p n _ _ _ qs s.headPtr att unmarked queues ?run
    (.inr ⟨rfl, rfl, rfl⟩) (PortRec.vacates_gapAfter _ ?_) (by simp) (by simp)
    (returnLeads_returnLeads fun x hx => Bool.or_eq_true_iff.2 (.inr hx)))
  case run => rfl
  rw [queuedRun_port_state]
  exact state

/-- A failed step on a port that halts, in closed form (03 R55, 04 R75). -/
theorem failStep_of_halt {p : Port} (n : Slot) {s : State} (halt : (s.port p).haltOnError = true) :
    failStep p n s =
      (posted (runGone s n) (postQueue s n) (formRecord s n .timeout (s.run n).capture)
        (converts s n)).setPort p
        { s.port p with
          state := .halted, attached := none, interval := none, cut := .none, frame := none } := by
  rw [failStep, if_pos halt]
  simp only [detach, freeSlot_eq_runGone, postHeld_port, State.setPort_port_self,
    State.setPort_setPort]
  rw [← runGone_postHeld]
  rfl

theorem failStep_events {s : State} {p : Port} {n : Slot} (att : (s.port p).attached = some n)
    (state : (s.port p).state = .shifting ∨ (s.port p).state = .await) :
    Events s (failStep p n s) := by
  cases halt : (s.port p).haltOnError with
  | true =>
    rw [failStep_of_halt n halt]
    exact (Move.endedPosting _ att (.cleared _ (by simp)) (by simp)).events
  | false =>
    rw [failStep, if_neg (by simp [halt]), ← State.withSteps_self s n]
    simpa using endAtStep_events (s := s) .timeout (s.run n).steps att state

/-- A ready timeout is made of events (05 R95). -/
theorem readyTimesOut_events (p : Port) (s : State) : Events s (readyTimesOut p s) := by
  unfold readyTimesOut
  split
  next n att =>
    split
    next due =>
      unfold timeoutOutcome
      split
      · simpa using endAtStep_events (s := s) .aborted (s.run n).steps att (.inr due.1)
      next unmarked =>
        split
        · exact retryStep_events att (.inr due.1) (by simpa using unmarked)
        · exact failStep_events att (.inr due.1)
    · exact .refl s
  · exact .refl s

/-- The gap of a port without a run ends (05 R97). -/
theorem leaveGap_eq (p : Port) (s : State) :
    leaveGap p s = s.setPort p { s.port p with
      state := if (s.port p).enable then .idle else .off, interval := none, cut := .none } := rfl

theorem leaveGap_of_detached {p : Port} {s : State} (att : (s.port p).attached = none) :
    leaveGap p s = s.setPort p { s.port p with
      state := if (s.port p).enable then .idle else .off, attached := none, interval := none,
      cut := .none } := by
  rw [leaveGap_eq, ← att]

theorem gapOver_of_none {p : Port} {s : State} (att : (s.port p).attached = none) :
    gapOver p s = leaveGap p s := by
  simp only [gapOver, att]

theorem gapOver_of_unmarked {p : Port} {n : Slot} {s : State} (att : (s.port p).attached = some n)
    (unmarked : (s.run n).mark = false) : gapOver p s = startFrame p n s := by
  simp only [gapOver, att, unmarked, Bool.false_eq_true, if_false]

/-- A marked kept run ends at the gap's expiry, in closed form (03 R58). -/
theorem gapOver_of_marked {p : Port} {n : Slot} {s : State} (att : (s.port p).attached = some n)
    (marked : (s.run n).mark = true) :
    gapOver p s =
      (posted (runGone s n) (postQueue s n) (formRecord s n .aborted []) (converts s n)).setPort p
        { s.port p with
          state := if (s.port p).enable then .idle else .off, attached := none, interval := none,
          cut := .none } := by
  simp only [gapOver, att, marked, if_true, freeSlot_detach_postHeld, leaveGap_eq,
    State.setPort_port_self, State.setPort_setPort]

theorem gapExpires_events (p : Port) (s : State) : Events s (gapExpires p s) := by
  unfold gapExpires
  split
  next due =>
    refine Move.decide ?_
    cases att : (s.port p).attached with
    | none =>
      rw [gapOver_of_none att]
      rw [leaveGap_of_detached att]
      exact .vacated s p _ att (.left _ (by split <;> simp) due.1) (by simp)
    | some n =>
      cases mark : (s.run n).mark with
      | true =>
        rw [gapOver_of_marked att mark]
        exact .endedPosting _ att (.left _ (by split <;> simp) due.1) (by simp)
      | false =>
        rw [gapOver_of_unmarked att mark]
        exact .framed s p n att due.1
  · exact .refl s

/-- A cut port without a run enters its gap (05 R101). -/
theorem enterGap_vacated {led : Port → Bool} {p : Port} {s : State}
    (att : (s.port p).attached = none)
    (state : (s.port p).state = .shifting ∨ (s.port p).state = .await) (leads : led p = true) :
    Move led s (enterGap p s) := by
  rw [enterGap_of_detached att]
  exact .vacated s p _ att (PortRec.vacates_gapAfter _ state) fun _ => leads

/-- The end of a byte cut by PORT_RESET, in closed form (05 R101). -/
theorem cutFinished_of_reset {p : Port} {s : State} (cut : (s.port p).cut = .reset)
    (att : (s.port p).attached = none) :
    cutFinished p s = decideWhere (fun x => x == p) (s.setPort p { s.port p with
      state := if (s.port p).enable then .idle else .off, attached := none, interval := none,
      cut := .none, frame := none }) := by
  simp only [cutFinished, cut]
  rw [← att]

theorem cutByteEnds_events (p : Port) (s : State) : Events s (cutByteEnds p s) := by
  unfold cutByteEnds
  split
  next cond =>
    obtain ⟨state, att⟩ := cond
    cases cut : (s.port p).cut with
    | none => simp only [cutFinished, cut]; exact .refl s
    | abort =>
      simp only [cutFinished, cut]
      exact (enterGap_vacated att (.inl state) (by simp)).decide
    | reset =>
      rw [cutFinished_of_reset cut att]
      exact (Move.vacated s p _ att (.cleared _ (by split <;> simp)) (by simp)).decide
  · exact .refl s

theorem enterAwait_eq (p : Port) (n : Slot) (s : State) : enterAwait p n s = awaiting s p n := rfl

theorem awaiting_port (s : State) (p : Port) (n : Slot) :
    ((awaiting s p n).port p).attached = (s.port p).attached
      ∧ ((awaiting s p n).port p).state = .await := by
  simp [awaiting]

theorem frameEnds_events (p : Port) (ready : Bool) (s : State) :
    Events s (frameEnds p ready s) := by
  unfold frameEnds
  split
  next n f att frame =>
    split
    next cond =>
      split
      · have waits : Events s (enterAwait p n s) := (Move.awaits s p n att cond.1).events
        obtain ⟨same, state⟩ := awaiting_port s p n
        simp only []
        split
        · exact waits.trans (stepSuccess_events (same.trans att) (.inr state))
        · exact waits
      · exact stepSuccess_events att (.inl cond.1)
    · exact .refl s
  · exact .refl s

theorem readyArrives_events (p : Port) (level : Bool) (s : State) :
    Events s (readyArrives p level s) := by
  unfold readyArrives
  split
  next n att =>
    split
    next cond => exact stepSuccess_events att (.inr cond.1)
    · exact .refl s
  · exact .refl s

theorem transmitBegins_events (p : Port) (s : State) : Events s (transmitBegins p s) := by
  unfold transmitBegins
  split
  next n f att frame =>
    simp only []
    split
    next cond => exact (Move.sent s p n f _ att frame cond.2).events
    · exact .refl s
  · exact .refl s

theorem receiveSampled_events (p : Port) (bits : Byte) (s : State) :
    Events s (receiveSampled p bits s) := by
  unfold receiveSampled
  split
  next n f att frame =>
    simp only []
    split
    next cond => exact (Move.received s p n f _ att frame cond.2.2).events
    · exact .refl s
  · exact .refl s

-- Commands of the host

/-- The bytes of the record of a run that PORT_ABORT or PORT_RESET ends (03 R62). -/
def abortData (s : State) (p : Port) (n : Slot) : List Byte :=
  if (s.port p).state = .gap then [] else (s.run n).capture

theorem abortData_of_gap {s : State} {p : Port} (n : Slot) (gap : (s.port p).state = .gap) :
    abortData s p n = [] := if_pos gap

theorem abortData_of_ne {s : State} {p : Port} (n : Slot) (live : (s.port p).state ≠ .gap) :
    abortData s p n = (s.run n).capture := if_neg live

/-- The run of slot `n` gone with an ABORTED record of `data`, its port as it was (03 R62). -/
def abortedRun (s : State) (n : Slot) (data : List Byte) : State :=
  posted (runGone s n) (postQueue s n) (formRecord s n .aborted data) (converts s n)

/-- The end of the attached run at a PORT_ABORT or PORT_RESET, in closed form (03 R62). -/
theorem abortAttached_eq (p : Port) (n : Slot) (s : State) :
    abortAttached p n s =
      (abortedRun s n (abortData s p n)).setPort p { s.port p with attached := none } :=
  freeSlot_detach_postHeld p n _ s

theorem cutsByte_of_attached {p : Port} {n : Slot} {s : State} (att : (s.port p).attached = some n) :
    cutsByte s p = (s.port p).frame.any insideByte := by
  cases frame : (s.port p).frame <;> simp [cutsByte, att, frame, byteInProgress_eq]

/-- A port whose run has been cut off enters its gap (05 R100, R101). -/
theorem enterGap_cutOff (p : Port) (c : Cut) (u : State) :
    enterGap p (u.setPort p { u.port p with attached := none, cut := c }) =
      u.setPort p ((u.port p).gapAfter (gapTicks u p)) := by
  have hg : gapTicks (u.setPort p { u.port p with attached := none, cut := c }) p = gapTicks u p :=
    gapTicks_congr (by simp) rfl
  rw [enterGap_of_detached (by simp), hg, State.setPort_port_self, State.setPort_setPort]
  rfl

section
variable {p : Port} {n : Slot} {s : State} (att : (s.port p).attached = some n)
include att

theorem abortPort_shifting (state : (s.port p).state = .shifting) :
    abortPort p s =
      if cutsByte s p then
        (abortAttached p n s).setPort p { (abortAttached p n s).port p with cut := .abort }
      else cutFinished p
        ((abortAttached p n s).setPort p { (abortAttached p n s).port p with cut := .abort }) := by
  simp only [abortPort, att, state]

theorem abortPort_await (state : (s.port p).state = .await) :
    abortPort p s = decideWhere (fun x => x == p) (enterGap p (abortAttached p n s)) := by
  simp only [abortPort, att, state]

theorem abortPort_gap (state : (s.port p).state = .gap) :
    abortPort p s = abortAttached p n s := by
  simp only [abortPort, att, state]

end

/-- PORT_ABORT of a port that shifts, in closed form: the byte in progress is finished, or the port enters
its gap (05 R100, R101). -/
theorem abortPort_of_shifting {p : Port} {n : Slot} {s : State} (att : (s.port p).attached = some n)
    (state : (s.port p).state = .shifting) :
    abortPort p s =
      if (s.port p).frame.any insideByte then
        (abortedRun s n (s.run n).capture).setPort p { s.port p with attached := none, cut := .abort }
      else decideWhere (fun x => x == p)
        ((abortedRun s n (s.run n).capture).setPort p ((s.port p).gapAfter (gapTicks s p))) := by
  have hs : (abortAttached p n s).setPort p { (abortAttached p n s).port p with cut := .abort } =
      (abortedRun s n (s.run n).capture).setPort p
        { s.port p with attached := none, cut := .abort } := by
    rw [abortAttached_eq, abortData_of_ne n (by simp [state]), State.setPort_port_self,
      State.setPort_setPort]
  have hc : cutFinished p ((abortedRun s n (s.run n).capture).setPort p
      { s.port p with attached := none, cut := .abort }) = decideWhere (fun x => x == p)
        ((abortedRun s n (s.run n).capture).setPort p ((s.port p).gapAfter (gapTicks s p))) := by
    simp only [cutFinished, State.setPort_port_self]
    exact congrArg _ (enterGap_cutOff p .abort (abortedRun s n (s.run n).capture))
  rw [abortPort_shifting att state, hs, hc, cutsByte_of_attached att]

/-- PORT_ABORT of a port in AWAIT, in closed form (05 R100). -/
theorem abortPort_of_await {p : Port} {n : Slot} {s : State} (att : (s.port p).attached = some n)
    (state : (s.port p).state = .await) :
    abortPort p s = decideWhere (fun x => x == p)
      ((abortedRun s n (s.run n).capture).setPort p ((s.port p).gapAfter (gapTicks s p))) := by
  rw [abortPort_await att state, abortAttached_eq, abortData_of_ne n (by simp [state])]
  exact congrArg _ (enterGap_cutOff p (s.port p).cut (abortedRun s n (s.run n).capture))

/-- PORT_ABORT of a port in GAP, in closed form (05 R100). -/
theorem abortPort_of_gap {p : Port} {n : Slot} {s : State} (att : (s.port p).attached = some n)
    (state : (s.port p).state = .gap) :
    abortPort p s = (abortedRun s n []).setPort p { s.port p with attached := none } := by
  rw [abortPort_gap att state, abortAttached_eq, abortData_of_gap n state]

theorem abortPort_events (p : Port) (s : State) : Events s (abortPort p s) := by
  cases att : (s.port p).attached with
  | none => simp only [abortPort, att]; exact .refl s
  | some n =>
    cases state : (s.port p).state with
    | shifting =>
      rw [abortPort_of_shifting att state]
      split
      next inside =>
        obtain ⟨f, frame, inside⟩ := Option.any_eq_true _ _ |>.1 inside
        exact (Move.endedPosting _ att (.cutAt _ f (by simp) state frame fun _ => inside)
          (by simp [state])).events
      · exact (Move.endedPosting _ att (PortRec.vacates_gapAfter _ (.inl state)) (by simp)).decide
    | await =>
      rw [abortPort_of_await att state]
      exact (Move.endedPosting _ att (PortRec.vacates_gapAfter _ (.inr state)) (by simp)).decide
    | gap =>
      rw [abortPort_of_gap att state]
      exact (Move.endedPosting _ att (.inGap state) (by simp [state])).events
    | off => simp only [abortPort, att, state]; exact .refl s
    | idle => simp only [abortPort, att, state]; exact .refl s
    | halted => simp only [abortPort, att, state]; exact .refl s

theorem resumePort_events (p : Port) (s : State) : Events s (resumePort p s) := by
  simp only [resumePort]
  split
  next halted =>
    exact (Move.switched s p _ (by split <;> simp) (.inr (.inr halted)) (by simp)).decide
  · exact .refl s

theorem cancelSlot_events (src : Source) (n : Slot) (s : State) :
    Events s (cancelSlot src n s) := by
  simp only [cancelSlot]
  split
  · split
    · exact .refl s
    next pending => exact (Move.dropped s n pending).events
    next active => exact (Move.marked s n (by simp [Run.isAttached, active])).events
    next awaiting => exact (Move.marked s n (by simp [Run.isAttached, awaiting])).events
  · exact .refl s

theorem cancelSource_events (src : Source) (s : State) : Events s (cancelSource src s) :=
  events_foldl _ (fun s n => cancelSlot_events src n s) allSlots s

-- Lines, timers and the expiries that are due

/-- The detector of a line, or the timers, change (01 R2, 08 R159). -/
theorem setLine_events (n : LineId) (x : Line) (s : State) : Events s (s.setLine n x) :=
  (Move.counted s _ s.timers s.raceCount fun _ => ⟨rfl, rfl⟩).events

theorem setTimer_events (k : TimerId) (x : Timer) (s : State)
    (h : x.reload = (s.timer k).reload ∧ x.mode = (s.timer k).mode) : Events s (s.setTimer k x) := by
  refine (Move.counted s s.lines _ s.raceCount fun j => ?_).events
  have : (s.timers.set k x)[j] = if j = k then x else s.timer j := State.setTimer_timer s k x j
  rw [this]
  split
  · next e => subst e; exact h
  · exact ⟨rfl, rfl⟩

theorem lineSees_events (n : LineId) (level : Bool) (s : State) :
    Events s (lineSees n level s) := by
  simp only [lineSees]
  split
  · exact .refl s
  · split
    · exact ((setLine_events _ _ _).trans (setLine_events _ _ _)).trans (triggerEvent_events _ _)
    · exact setLine_events _ _ _

theorem holdOffOver_events (n : LineId) (s : State) : Events s (holdOffOver n s) := by
  unfold holdOffOver
  split
  · exact setLine_events _ _ _
  · exact .refl s

theorem expiredTimer_config (T : Timer) :
    (expiredTimer T).reload = T.reload ∧ (expiredTimer T).mode = T.mode := by
  unfold expiredTimer
  split
  · exact ⟨rfl, rfl⟩
  · split <;> exact ⟨rfl, rfl⟩

theorem timerExpires_events (k : TimerId) (s : State) : Events s (timerExpires k s) := by
  simp only [timerExpires]
  split
  · exact (triggerEvent_events _ _).trans (setTimer_events k _ _ (expiredTimer_config _))
  · exact .refl s

theorem takeExpiry_events (e : Expiry) (s : State) : Events s (takeExpiry e s) := by
  cases e with
  | holdOff n => exact holdOffOver_events n s
  | timer k => exact timerExpires_events k s
  | readyTimeout p => exact readyTimesOut_events p s
  | gap p => exact gapExpires_events p s

theorem settleDue_events (s : State) : Events s (settleDue s) := by
  obtain ⟨-, k, hk, -⟩ := drawOrder_spec (dueExpiries s) s
  have drawn : Events s (drawOrder (dueExpiries s) s).2 := by
    rw [hk]
    exact (Move.counted s s.lines s.timers k fun _ => ⟨rfl, rfl⟩).events
  exact drawn.trans (events_foldl _ (fun s e => takeExpiry_events e s) _ _)

end Sys2Proof.Machine
end

section
/-! What else a command can do: host writes to the tables and registers, and part clocks. With the events of
the engine they make every command but PORT_RESET, ENGINE_RESET and the end of start-up (chapter 9). -/

namespace Sys2Proof.Machine

/-- Port record `P'` differs from `P` at most in what the host configures and in its starvation counter. -/
def PortRec.SameService (P P' : PortRec) : Prop :=
  P' = { P with
    enable := P'.enable, haltOnError := P'.haltOnError, haltNotify := P'.haltNotify, group := P'.group,
    starveLimit := P'.starveLimit, starveCount := P'.starveCount }

/-- Trigger map entry `e'` written over `e` (01 R8): live-run count kept, and the limits changed only while
no run lives. -/
def TrigEntry.Writes (e e' : TrigEntry) : Prop :=
  e'.live = e.live
    ∧ (e'.limit = e.limit ∨ (e.live = 0 ∧ e'.limit.toNat ≤ 4))
    ∧ (e'.stepLimit = e.stepLimit ∨ e.live = 0)

/-- The part of the state on which the laws over runs, ports and queues rest. -/
def SameCore (s t : State) : Prop :=
  t.runs = s.runs ∧ t.ports = s.ports ∧ t.queues = s.queues ∧ t.trig = s.trig ∧ t.targets = s.targets

/-- The changes that no event of the engine makes. `led` names ports that a change leads to decisions. -/
inductive Setting (led : Port → Bool) : State → State → Prop
  /-- A change outside runs, ports, queues, trigger map and targets. -/
  | outside (s t : State) (same : SameCore s t) : Setting led s t
  /-- A target byte stored (05 R83, R84). -/
  | target (s : State) (i : Nat) (v : Byte) (bound : i < 64)
      (off : (s.port (targetPort s.targets (Fin.ofNat 8 (i / 8)))).offAndEmpty = true)
      (distinct : i % 8 = 0 → bitOf v 0 = true → selectTaken s.targets (Fin.ofNat 8 (i / 8))
        (Fin.ofNat 4 (bitsOf v 1 2)) (bitOf v 3) = false) :
    Setting led s { s with targets := memWrite s.targets i v }
  /-- A trigger map entry written, or its latch or count cleared (01 R7-R9, R14). -/
  | entry (s : State) (n : Source) (e : TrigEntry) (writes : (s.trigger n).Writes e) :
    Setting led s (s.setTrigger n e)
  /-- A queue's settings written, its latches or counts cleared, or records removed (06 R117, R123-R126). -/
  | queue (s : State) (q : QueueId) (Q : Queue) (quota : Q.quota = (s.queue q).quota)
      (policy : Q.policy = (s.queue q).policy) (resv : Q.resv = (s.queue q).resv)
      (threshold : Q.threshold = (s.queue q).threshold ∨ Q.threshold.toNat ≤ Q.quota)
      (records : Q.records = (s.queue q).records
        ∨ (Q.occupancy ≤ (s.queue q).occupancy
          ∧ ∀ x, waits (s.setQueue q Q) q x = true → led x = true)) :
    Setting led s (s.setQueue q Q)
  /-- Quota and policy of an empty queue written (06 R127). -/
  | quota (s : State) (q : QueueId) (Q : Queue) (empty : (s.queue q).occupancy = 0)
      (unreserved : (s.queue q).resv = 0)
      (config : Q = { s.queue q with quota := Q.quota, policy := Q.policy })
      (unnamed : (s.queue q).policy = .lossy → Q.policy = .lossless → attachedNames s q = false)
      (sum : otherQuotas s q + Q.quota ≤ 64) (threshold : Q.threshold.toNat ≤ Q.quota)
      (leads : ∀ x, waits (s.setQueue q Q) q x = true → led x = true) :
    Setting led s (s.setQueue q Q)
  /-- A port's settings written (04 R78). -/
  | port (s : State) (p : Port) (P : PortRec) (service : (s.port p).SameService P) :
    Setting led s (s.setPort p P)
  /-- Part clocks pass (05 R86). -/
  | passes (s t : State) (k : Nat)
      (same : SameCore { s with ports := mapAll (passPort s k) s.ports } t) : Setting led s t
  /-- A tick (08 R154). -/
  | ticks (s t : State) (same : SameCore { s with ports := mapAll tickPort s.ports } t) :
    Setting led s t

/-- A move or a setting, and the grant decisions that it leads to. -/
def Change (s t : State) : Prop :=
  ∃ led m, (Move led s m ∨ Setting led s m) ∧ Decided led m t

/-- Changes, one after the other. -/
def Changes : State → State → Prop := Relation.ReflTransGen Change

theorem Changes.refl (s : State) : Changes s s := Relation.ReflTransGen.refl

theorem Changes.trans {s t u : State} (h : Changes s t) (h' : Changes t u) : Changes s u :=
  Relation.ReflTransGen.trans h h'

theorem Events.changes {s t : State} (h : Events s t) : Changes s t :=
  Relation.ReflTransGen.mono (fun _ _ ⟨led, m, hm, hd⟩ => ⟨led, m, .inl hm, hd⟩) _ _ h

theorem Setting.changes {s t : State} (h : Setting (fun _ => false) s t) : Changes s t :=
  .single ⟨_, t, .inr h, decided_none t⟩

theorem Setting.decide {led : Port → Bool} {s t : State} (h : Setting led s t) :
    Changes s (decideWhere led t) :=
  .single ⟨led, t, .inr h, decideWhere_decided led t⟩

theorem SameCore.changes {s t : State} (h : SameCore s t) : Changes s t :=
  (Setting.outside s t h).changes

theorem changes_foldl {α : Type} (f : State → α → State) (h : ∀ s a, Changes s (f s a))
    (l : List α) (s : State) : Changes s (l.foldl f s) := by
  induction l generalizing s with
  | nil => exact .refl s
  | cons a l ih => exact (h s a).trans (ih _)

-- Part clocks

theorem passClocks_changes (k : Nat) (s : State) : Changes s (passClocks k s) :=
  (Setting.passes s (passClocks k s) k ⟨rfl, rfl, rfl, rfl, rfl⟩).changes

theorem takeTick_changes (s : State) : Changes s (takeTick s) :=
  (Setting.ticks s (takeTick s) ⟨rfl, rfl, rfl, rfl, rfl⟩).changes

theorem reachTick_changes (s : State) : Changes s (reachTick s) :=
  ((settleDue_events s).changes.trans (passClocks_changes _ _)).trans (takeTick_changes _)

theorem partClock_changes (s : State) : Changes s (partClock s) := by
  have passed : Changes s (passClocks 1 (settleDue s)) :=
    (settleDue_events s).changes.trans (passClocks_changes 1 _)
  simp only [partClock]
  split
  · exact passed.trans (SameCore.changes ⟨rfl, rfl, rfl, rfl, rfl⟩)
  · exact passed.trans (takeTick_changes _)

theorem afterClocks_changes (k : Nat) (s : State) : Changes s (afterClocks k s) := by
  induction k generalizing s with
  | zero => exact .refl s
  | succ k ih => exact (partClock_changes s).trans (ih _)

-- The gates

theorem whenRunning_changes {f : State → State} (h : ∀ s, Changes s (f s)) (s : State) :
    Changes s (whenRunning f s) := by
  unfold whenRunning
  split
  · exact h s
  · exact .refl s

theorem hostWrite_changes {f : State → State} (h : ∀ s, Changes s (f s)) (s : State) :
    Changes s (hostWrite f s) := by
  unfold hostWrite
  split
  · exact Changes.trans (t := { s with claim := .closed })
      (SameCore.changes ⟨rfl, rfl, rfl, rfl, rfl⟩) (h _)
  · exact .refl s

theorem hostRead_changes {f : State → State} (h : ∀ s, Changes s (f s)) (s : State) :
    Changes s (hostRead f s) := by
  unfold hostRead
  split
  · exact Changes.trans (t := { s with claim := .closed })
      (SameCore.changes ⟨rfl, rfl, rfl, rfl, rfl⟩) (h _)
  · exact SameCore.changes ⟨rfl, rfl, rfl, rfl, rfl⟩

theorem refuse_sameCore (c : FaultCode) (s : State) : SameCore s (refuse c s) := by
  unfold refuse
  split <;> exact ⟨rfl, rfl, rfl, rfl, rfl⟩

theorem refuse_changes (c : FaultCode) (s : State) : Changes s (refuse c s) :=
  (refuse_sameCore c s).changes

theorem withArg_changes {n : Nat} {f : Fin n → State → State} (h : ∀ i s, Changes s (f i s))
    (s : State) : Changes s (withArg n f s) := by
  unfold withArg
  split
  · exact refuse_changes _ s
  · exact h _ s

-- The tables

theorem writeTarget_changes {i : Nat} (bound : i < 64) (v : Byte) (s : State) :
    Changes s (writeTarget i v s) := by
  simp only [writeTarget]
  split
  · exact refuse_changes _ s
  next free =>
    split
    · exact refuse_changes _ s
    · split
      · exact refuse_changes _ s
      next distinct =>
        refine (Setting.target s i v bound ?_ ?_).changes
        · simpa using (Bool.or_eq_false_iff.1 (Bool.eq_false_iff.2 free)).1
        · intro hk hv
          simpa [hk, hv] using distinct

theorem setTrigger_changes {s : State} {n : Source} {e : TrigEntry} (h : (s.trigger n).Writes e) :
    Changes s (s.setTrigger n e) :=
  Setting.changes (.entry s n e h)

theorem writeTriggerAnyTime_changes (n : Source) (v : Byte) (s : State) :
    Changes s (writeTriggerAnyTime n v s) := by
  simp only [writeTriggerAnyTime]
  split
  · exact refuse_changes _ s
  · exact setTrigger_changes ⟨rfl, .inl rfl, .inl rfl⟩

/-- A configuration byte keeps the live-run count and sets an instance limit of at most 4 (01 R7). -/
theorem triggerConfig_writes {e e' : TrigEntry} {k : Nat} {v : Byte} (free : e.live = 0)
    (h : triggerConfig e k v = some e') : e.Writes e' := by
  unfold triggerConfig at h
  split at h
  · split at h
    · cases h; exact ⟨rfl, .inl rfl, .inl rfl⟩
    · cases h
  · split at h
    · cases h
    · split at h
      · cases h
      next sel _ lim =>
        cases h
        refine ⟨rfl, .inr ⟨free, ?_⟩, .inl rfl⟩
        simp only [BitVec.toNat_ofNat]
        omega
  · cases h; exact ⟨rfl, .inl rfl, .inr free⟩
  · obtain ⟨o, -, rfl⟩ := Option.map_eq_some_iff.1 h
    exact ⟨rfl, .inl rfl, .inl rfl⟩
  · cases h; exact ⟨rfl, .inl rfl, .inl rfl⟩

theorem writeTrigger_changes (i : Nat) (v : Byte) (s : State) : Changes s (writeTrigger i v s) := by
  simp only [writeTrigger]
  split
  · exact writeTriggerAnyTime_changes _ v s
  · split
    · exact setTrigger_changes ⟨rfl, .inl rfl, .inl rfl⟩
    · split
      · exact .refl s
      · split
        · exact refuse_changes _ s
        next busy =>
          have free : (s.trigger (Fin.ofNat 20 (i / 8))).live = 0 := by
            simpa [TrigEntry.busy] using (Bool.or_eq_false_iff.1 (Bool.eq_false_iff.2 busy)).2
          split
          · exact refuse_changes _ s
          next e' h => exact setTrigger_changes (triggerConfig_writes free h)

theorem policy_eq_lossless_of_ne {x : Policy} (h : x ≠ .lossy) : x = .lossless := by
  cases x
  · exact absurd rfl h
  · rfl

theorem writeQuota_changes (q : QueueId) (v : Byte) (s : State) :
    Changes s (writeQuota q v s) := by
  simp only [writeQuota]
  split
  · exact refuse_changes _ s
  next empty =>
    obtain ⟨occ, resv⟩ := not_or.1 empty
    split
    · exact refuse_changes _ s
    next unnamed =>
      split
      · exact refuse_changes _ s
      · split
        · exact refuse_changes _ s
        next sum =>
          split
          · exact refuse_changes _ s
          next threshold =>
            refine Setting.decide (Setting.quota s q _ (not_not.1 occ) (not_not.1 resv) rfl ?_
              (not_lt.1 sum) (not_lt.1 threshold) fun x hx => hx)
            intro lossy lossless
            exact Bool.eq_false_iff.2 fun named => unnamed ⟨lossy, lossless, named⟩

theorem writeQueue_changes (i : Nat) (v : Byte) (s : State) : Changes s (writeQueue i v s) := by
  simp only [writeQueue]
  split
  · exact writeQuota_changes _ v s
  · split
    · exact refuse_changes _ s
    next threshold =>
      exact Setting.changes (.queue s _ _ rfl rfl rfl (.inr (not_lt.1 threshold)) (.inl rfl))
  · exact Setting.changes (.queue s _ _ rfl rfl rfl (.inl rfl) (.inl rfl))
  · exact .refl s

theorem writeGroup_changes (i : Nat) (v : Byte) (s : State) : Changes s (writeGroup i v s) := by
  simp only [writeGroup]
  split
  · exact SameCore.changes ⟨rfl, rfl, rfl, rfl, rfl⟩
  · exact .refl s

theorem setPort_changes {s : State} {p : Port} {P : PortRec} (h : (s.port p).SameService P) :
    Changes s (s.setPort p P) :=
  (Setting.port s p P h).changes

theorem writePortEnable_changes (p : Port) (on : Bool) (s : State) :
    Changes s (writePortEnable p on s) := by
  have enabled : Changes s (s.setPort p { s.port p with enable := on }) := setPort_changes rfl
  have switch {led : Port → Bool} (st : PortState) (dest : st = .off ∨ st = .idle)
      (resting : (s.port p).state = .off ∨ (s.port p).state = .idle ∨ (s.port p).state = .halted)
      (idle : st = .idle → led p = true) :
      Move led (s.setPort p { s.port p with enable := on })
        (s.setPort p { s.port p with enable := on, state := st }) := by
    have := Move.switched (led := led) (s.setPort p { s.port p with enable := on }) p st dest
      (by simpa using resting) idle
    simpa using this
  simp only [writePortEnable]
  split
  next off =>
    exact enabled.trans (switch .idle (.inr rfl) (.inl off) (by simp)).decide.changes
  next idle =>
    exact enabled.trans (switch .off (.inl rfl) (.inr (.inl idle)) (by simp)).events.changes
  · exact enabled

theorem writePort_changes (i : Nat) (v : Byte) (s : State) : Changes s (writePort i v s) := by
  simp only [writePort]
  split
  · refine Changes.trans ?_ (writePortEnable_changes _ _ _)
    exact setPort_changes rfl
  · exact setPort_changes rfl
  · exact .refl s

theorem setTimer_changes (k : TimerId) (T : Timer) (s : State) : Changes s (s.setTimer k T) :=
  SameCore.changes ⟨rfl, rfl, rfl, rfl, rfl⟩

theorem writeTimer_changes (i : Nat) (v : Byte) (s : State) : Changes s (writeTimer i v s) := by
  simp only [writeTimer]
  split
  · exact setTimer_changes _ _ s
  · exact setTimer_changes _ _ s
  · exact setTimer_changes _ _ s
  · exact .refl s

theorem tableWrite_changes {t : Fin 9} {i : Nat} (bound : i < tableSize t) (v : Byte) (s : State) :
    Changes s (tableWrite t i v s) := by
  unfold tableWrite
  split
  · exact SameCore.changes ⟨rfl, rfl, rfl, rfl, rfl⟩
  · exact SameCore.changes ⟨rfl, rfl, rfl, rfl, rfl⟩
  next ht => exact writeTarget_changes (by simpa [tableSize, ht] using bound) v s
  · exact writeTrigger_changes i v s
  · exact writeQueue_changes i v s
  · exact writeGroup_changes i v s
  · exact refuse_changes _ s
  · exact writePort_changes i v s
  · exact writeTimer_changes i v s

theorem writeTdata_changes (v : Byte) (s : State) : Changes s (writeTdata v s) := by
  have written : Changes s (if s.tidx.toNat < tableSize s.tsel then
      tableWrite s.tsel s.tidx.toNat v s else refuse .badArgument s) := by
    split
    next bound => exact tableWrite_changes bound v s
    · exact refuse_changes _ s
  exact written.trans (SameCore.changes ⟨rfl, rfl, rfl, rfl, rfl⟩)

-- The result queues

theorem flush_changes (q : QueueId) (s : State) : Changes s (flush q s) := by
  have pointer (hp : Nat) : Changes s { s with headPtr := hp } :=
    SameCore.changes ⟨rfl, rfl, rfl, rfl, rfl⟩
  have emptied (hp : Nat) : Changes { s with headPtr := hp } (queueChanged q
      ({ s with headPtr := hp }.setQueue q { s.queue q with records := [] })) :=
    Setting.decide (.queue { s with headPtr := hp } q _ rfl rfl rfl (.inl rfl)
      (.inr ⟨Nat.zero_le _, fun x hx => hx⟩))
  simp only [flush]
  split
  · exact (pointer 0).trans (emptied 0)
  · exact (pointer s.headPtr).trans (emptied s.headPtr)

theorem release_changes (v : Byte) (s : State) : Changes s (release v s) := by
  simp only [release]
  split
  · exact refuse_changes _ s
  next r rest records =>
    split
    · refine Changes.trans (t := { s with headPtr := 0 })
        (SameCore.changes ⟨rfl, rfl, rfl, rfl, rfl⟩) ?_
      refine Setting.decide (.queue { s with headPtr := 0 } s.rqsel _ rfl rfl rfl (.inl rfl)
        (.inr ⟨?_, fun x hx => hx⟩))
      change rest.length ≤ (s.queue s.rqsel).records.length
      simp [records]
    · exact refuse_changes _ s

theorem clearMissLatches_changes (reg : Fin 3) (v : Byte) (s : State) :
    Changes s (clearMissLatches reg v s) := by
  refine changes_foldl _ (fun s n => ?_) allSources s
  split
  · exact setTrigger_changes ⟨rfl, .inl rfl, .inl rfl⟩
  · exact .refl s

end Sys2Proof.Machine
end

section
/-! All that a step can do, said once: changes one after the other, or a reset (09 9.4, 9.6). The laws that
every step keeps are derived from it. -/

namespace Sys2Proof.Machine

/-- What a step makes of state `s`: changes, and after them possibly ENGINE_RESET, the end of start-up or the
PORT_RESET of one port. -/
inductive Outcomes (s : State) : State → Prop
  | changes {t : State} (h : Changes s t) : Outcomes s t
  | engineReset {u : State} (h : Changes s u) : Outcomes s (engineReset u)
  | startedUp (u : State) : Outcomes s (startedUp u)
  | portReset {u : State} (p : Port) (h : Changes s u) : Outcomes s (resetPortCmd p u)

/-- Changes outside runs, ports, queues, trigger map and targets. -/
theorem sameCore_changes {s t : State} (runs : t.runs = s.runs) (ports : t.ports = s.ports)
    (queues : t.queues = s.queues) (trig : t.trig = s.trig) (targets : t.targets = s.targets) :
    Changes s t :=
  SameCore.changes ⟨runs, ports, queues, trig, targets⟩

theorem SameCore.refl (s : State) : SameCore s s := ⟨rfl, rfl, rfl, rfl, rfl⟩

theorem softwareTrigger_changes (v : Byte) (s : State) : Changes s (softwareTrigger v s) := by
  unfold softwareTrigger
  split
  · exact refuse_changes _ s
  · exact (triggerEvent_events _ s).changes

theorem selectTable_changes (v : Byte) (s : State) : Changes s (selectTable v s) := by
  unfold selectTable
  split
  · exact refuse_changes _ s
  · exact sameCore_changes rfl rfl rfl rfl rfl

theorem selectQueue_changes (v : Byte) (s : State) : Changes s (selectQueue v s) := by
  unfold selectQueue
  split
  · exact refuse_changes _ s
  · exact sameCore_changes rfl rfl rfl rfl rfl

theorem readHead_changes (s : State) : Changes s (readHead s) := by
  unfold readHead
  split <;> exact sameCore_changes rfl rfl rfl rfl rfl

theorem clearLatches_changes (v : Byte) (s : State) : Changes s (clearLatches v s) :=
  Setting.changes (.queue s _ _ rfl rfl rfl (.inl rfl) (.inl rfl))

theorem clearLostCount_changes (s : State) : Changes s (clearLostCount s) :=
  Setting.changes (.queue s _ _ rfl rfl rfl (.inl rfl) (.inl rfl))

theorem claimEdge_sameCore (s : State) : SameCore s (claimEdge s) := by
  unfold claimEdge
  split <;> exact ⟨rfl, rfl, rfl, rfl, rfl⟩

theorem endService_changes (v : Byte) (s : State) : Changes s (endService v s) := by
  unfold endService
  split
  · exact refuse_changes _ s
  · split
    · exact refuse_changes _ s
    · split
      · exact sameCore_changes rfl rfl rfl rfl rfl
      · exact refuse_changes _ s

theorem storeRegister_changes (reg : PlainReg) (v : Byte) (s : State) :
    Changes s (storeRegister reg v s) := by
  cases reg <;> exact sameCore_changes rfl rfl rfl rfl rfl

theorem startTimer_changes (k : TimerId) (s : State) : Changes s (startTimer k s) := by
  refine (timerExpires_events k s).changes.trans ?_
  simp only [startTimer]
  split
  · exact refuse_changes _ _
  · exact setTimer_changes _ _ _

theorem stopTimer_changes (k : TimerId) (s : State) : Changes s (stopTimer k s) :=
  (timerExpires_events k s).changes.trans (setTimer_changes _ _ _)

/-- The state in which the part clocks before a PORT_RESET or PORT_ABORT have passed. -/
theorem whenRunning_afterClocks_changes (later : Nat) (s : State) :
    Changes s (whenRunning (afterClocks later) s) :=
  whenRunning_changes (afterClocks_changes later) s

theorem portReset_outcomes (later : Nat) (s : State) :
    Outcomes s (hostWrite (withArg 4 resetPortCmd) (whenRunning (afterClocks later) s)) := by
  have passed := whenRunning_afterClocks_changes later s
  generalize whenRunning (afterClocks later) s = u at passed ⊢
  have closed : Changes s { u with claim := .closed } :=
    passed.trans (sameCore_changes rfl rfl rfl rfl rfl)
  unfold hostWrite
  split
  · unfold withArg
    split
    · exact .changes (closed.trans (refuse_changes _ _))
    · exact .portReset _ closed
  · exact .changes passed

theorem engineReset_outcomes (s : State) : Outcomes s (hostWrite engineReset s) := by
  unfold hostWrite
  split
  · exact .engineReset (u := { s with claim := .closed }) (sameCore_changes rfl rfl rfl rfl rfl)
  · exact .changes (.refl s)

theorem startUpEnd_outcomes (s : State) :
    Outcomes s (if s.mode = .startUp then startedUp s else s) := by
  split
  · exact .startedUp s
  · exact .changes (.refl s)

/-- All that a command that answers a next state can do. -/
theorem exec_outcomes {c : Instr} {s t : State} (h : exec c s = .next t) : Outcomes s t := by
  cases c with
  | badCommand code =>
    change execBadCommand code s = .next t at h
    unfold execBadCommand at h
    split at h
    · cases h
    · cases h
      exact .changes (hostWrite_changes (refuse_changes _) s)
  | nclaimRead part =>
    cases part <;> obtain rfl := Host.Outcome.next.inj h
    · exact .changes (hostRead_changes (fun s => Changes.trans (t := claimStart s)
        (sameCore_changes rfl rfl rfl rfl rfl) (claimEdge_sameCore _).changes) s)
    · exact .changes (hostRead_changes (f := claimStart)
        (fun s => sameCore_changes rfl rfl rfl rfl rfl) s)
    · exact .changes (whenRunning_changes (fun s => (claimEdge_sameCore s).changes) s)
  | resetRelease =>
    obtain rfl := Host.Outcome.next.inj h
    refine .changes ?_
    split
    · exact sameCore_changes rfl rfl rfl rfl rfl
    · exact .refl s
  | startUpEnd => obtain rfl := Host.Outcome.next.inj h; exact startUpEnd_outcomes s
  | engineReset => obtain rfl := Host.Outcome.next.inj h; exact engineReset_outcomes s
  | portReset later => obtain rfl := Host.Outcome.next.inj h; exact portReset_outcomes later s
  | portAbort later =>
    obtain rfl := Host.Outcome.next.inj h
    exact .changes ((whenRunning_afterClocks_changes later s).trans (hostWrite_changes
      (withArg_changes fun p s => (abortPort_events p s).changes) _))
  | deviceReset =>
    obtain rfl := Host.Outcome.next.inj h
    exact .changes (sameCore_changes rfl rfl rfl rfl rfl)
  | tick => obtain rfl := Host.Outcome.next.inj h; exact .changes (whenRunning_changes reachTick_changes s)
  | triggerLineEdge n level =>
    obtain rfl := Host.Outcome.next.inj h
    exact .changes ((setLine_events n _ s).changes.trans
      (whenRunning_changes (fun s => (lineSees_events n level s).changes) _))
  | holdOffExpiry n =>
    obtain rfl := Host.Outcome.next.inj h
    exact .changes (whenRunning_changes (fun s => (holdOffOver_events n s).changes) s)
  | intervalTimerExpiry k =>
    obtain rfl := Host.Outcome.next.inj h
    exact .changes (whenRunning_changes (fun s => (timerExpires_events k s).changes) s)
  | frameEnd p ready =>
    obtain rfl := Host.Outcome.next.inj h
    exact .changes (whenRunning_changes (fun s => (frameEnds_events p ready s).changes) s)
  | readyArrival p level =>
    obtain rfl := Host.Outcome.next.inj h
    exact .changes (whenRunning_changes (fun s => (readyArrives_events p level s).changes) s)
  | readyTimeoutExpiry p =>
    obtain rfl := Host.Outcome.next.inj h
    exact .changes (whenRunning_changes (fun s => (readyTimesOut_events p s).changes) s)
  | gapExpiry p =>
    obtain rfl := Host.Outcome.next.inj h
    exact .changes (whenRunning_changes (fun s => (gapExpires_events p s).changes) s)
  | cutByteEnd p =>
    obtain rfl := Host.Outcome.next.inj h
    exact .changes (whenRunning_changes (fun s => (cutByteEnds_events p s).changes) s)
  | transmitByteBegins p =>
    obtain rfl := Host.Outcome.next.inj h
    exact .changes (whenRunning_changes (fun s => (transmitBegins_events p s).changes) s)
  | receiveByteSampled p bits =>
    obtain rfl := Host.Outcome.next.inj h
    exact .changes (whenRunning_changes (fun s => (receiveSampled_events p bits s).changes) s)
  | portResume =>
    obtain rfl := Host.Outcome.next.inj h
    exact .changes (hostWrite_changes (withArg_changes fun p s => (resumePort_events p s).changes) s)
  | cancelTrigger =>
    obtain rfl := Host.Outcome.next.inj h
    exact .changes (hostWrite_changes
      (withArg_changes fun src s => (cancelSource_events src s).changes) s)
  | flushQueue =>
    obtain rfl := Host.Outcome.next.inj h
    exact .changes (hostWrite_changes (withArg_changes flush_changes) s)
  | timerStart =>
    obtain rfl := Host.Outcome.next.inj h
    exact .changes (hostWrite_changes (withArg_changes startTimer_changes) s)
  | timerStop =>
    obtain rfl := Host.Outcome.next.inj h
    exact .changes (hostWrite_changes (withArg_changes stopTimer_changes) s)
  | swtrigWrite v =>
    obtain rfl := Host.Outcome.next.inj h
    exact .changes (hostWrite_changes (softwareTrigger_changes v) s)
  | hfaultWrite v =>
    obtain rfl := Host.Outcome.next.inj h
    exact .changes (hostWrite_changes (f := clearFault) (fun s => sameCore_changes rfl rfl rfl rfl rfl) s)
  | tselWrite v =>
    obtain rfl := Host.Outcome.next.inj h
    exact .changes (hostWrite_changes (selectTable_changes v) s)
  | tdataRead =>
    obtain rfl := Host.Outcome.next.inj h
    exact .changes (hostRead_changes (f := readTdata) (fun s => sameCore_changes rfl rfl rfl rfl rfl) s)
  | tdataWrite v =>
    obtain rfl := Host.Outcome.next.inj h
    exact .changes (hostWrite_changes (writeTdata_changes v) s)
  | rqselWrite v =>
    obtain rfl := Host.Outcome.next.inj h
    exact .changes (hostWrite_changes (selectQueue_changes v) s)
  | rqflagsWrite v =>
    obtain rfl := Host.Outcome.next.inj h
    exact .changes (hostWrite_changes (clearLatches_changes v) s)
  | rqlostWrite v =>
    obtain rfl := Host.Outcome.next.inj h
    exact .changes (hostWrite_changes clearLostCount_changes s)
  | rqheadRead =>
    obtain rfl := Host.Outcome.next.inj h
    exact .changes (hostRead_changes readHead_changes s)
  | rqreleaseWrite v =>
    obtain rfl := Host.Outcome.next.inj h
    exact .changes (hostWrite_changes (release_changes v) s)
  | nctrlWrite v =>
    obtain rfl := Host.Outcome.next.inj h
    exact .changes (hostWrite_changes (f := writeNctrl v) (fun s => sameCore_changes rfl rfl rfl rfl rfl) s)
  | nendWrite v =>
    obtain rfl := Host.Outcome.next.inj h
    exact .changes (hostWrite_changes (endService_changes v) s)
  | tstampLoRead =>
    obtain rfl := Host.Outcome.next.inj h
    exact .changes (hostRead_changes (f := readTimestamp) (fun s => sameCore_changes rfl rfl rfl rfl rfl) s)
  | missLatchClear reg v =>
    obtain rfl := Host.Outcome.next.inj h
    exact .changes (hostWrite_changes (clearMissLatches_changes reg v) s)
  | readOnlyWrite reg v =>
    obtain rfl := Host.Outcome.next.inj h
    exact .changes (hostWrite_changes (refuse_changes _) s)
  | registerWrite reg v =>
    obtain rfl := Host.Outcome.next.inj h
    exact .changes (hostWrite_changes (storeRegister_changes reg v) s)

/-- All that a step can do. -/
theorem step_outcomes {s t : State} (h : step s = .next t) : Outcomes s t := by
  unfold step at h
  split at h
  · obtain rfl := Host.Outcome.next.inj h
    exact .changes (whenRunning_changes partClock_changes s)
  next c rest _ =>
    have taken : Changes s { s with pending := rest } := sameCore_changes rfl rfl rfl rfl rfl
    cases exec_outcomes h with
    | changes hc => exact .changes (taken.trans hc)
    | engineReset hc => exact .engineReset (taken.trans hc)
    | startedUp u => exact .startedUp u
    | portReset p hc => exact .portReset p (taken.trans hc)

/-- A law that every change and every reset keeps, wherever the laws `A` it leans on hold, is kept by every
step. -/
theorem step_keeps {A I : State → Prop} {s t : State} (h : step s = .next t) (ha : A s) (hi : I s)
    (change : ∀ s t, Change s t → A s → I s → A t ∧ I t)
    (engine : ∀ s, A s → I s → I (engineReset s)) (started : ∀ s, I (startedUp s))
    (port : ∀ p s, A s → I s → I (resetPortCmd p s)) : I t := by
  have chain {u : State} (hc : Changes s u) : A u ∧ I u := by
    induction hc with
    | refl => exact ⟨ha, hi⟩
    | tail _ hc ih => exact change _ _ hc ih.1 ih.2
  cases step_outcomes h with
  | changes hc => exact (chain hc).2
  | engineReset hc => exact engine _ (chain hc).1 (chain hc).2
  | startedUp u => exact started u
  | portReset p hc => exact port p _ (chain hc).1 (chain hc).2

end Sys2Proof.Machine
end

section
/-! Where the runs are (03 R37, R38): the law `RunsPlaced` as memberships, with at most one run out of place,
and what taking a run from its place and putting it in another does. -/

namespace Sys2Proof.Machine

/-- Slot `n` is where its record says, and in no other place (03 R37, R38). -/
structure Seated (s : State) (n : Slot) : Prop where
  queue : ∀ p τ, n ∈ (s.port p).tierQueue τ ↔
    (s.run n).state = .pending ∧ (s.run n).port = some p ∧ (s.run n).tier = τ
  attached : ∀ p, (s.port p).attached = some n ↔
    (s.run n).isAttached = true ∧ (s.run n).port = some p
  pending : (s.run n).state = .pending → (s.run n).resv = none ∧ (s.run n).mark = false
  located : (s.run n).state ≠ .free → ∃ p, (s.run n).port = some p
  free : (s.run n).state = .free → s.run n = freeRun

/-- Every slot is where its record says, and stands once in its queue. -/
structure Placed (s : State) : Prop where
  nodup : ∀ p τ, ((s.port p).tierQueue τ).Nodup
  seated : ∀ n, Seated s n

-- The law as memberships

/-- How many times slot `n` stands in the tier queues of port `p` or is attached to it. -/
def placesAt (s : State) (n : Slot) (p : Port) : Nat :=
  (s.port p).urgent.count n + (s.port p).normal.count n
    + if (s.port p).attached = some n then 1 else 0

theorem placesOf_eq_sum (s : State) (n : Slot) : placesOf s n = ∑ p, placesAt s n p :=
  (Fin.sum_univ_def _).symm

theorem sum_eq_one_iff {f : Port → Nat} {p : Port} (h : 1 ≤ f p) :
    ∑ x, f x = 1 ↔ f p = 1 ∧ ∀ x, x ≠ p → f x = 0 := by
  rw [← Finset.add_sum_erase _ f (Finset.mem_univ p)]
  constructor
  · intro hs
    have hz : ∑ x ∈ Finset.univ.erase p, f x = 0 := by omega
    refine ⟨by omega, fun x hx => ?_⟩
    exact Finset.sum_eq_zero_iff.1 hz x (Finset.mem_erase.2 ⟨hx, Finset.mem_univ x⟩)
  · rintro ⟨hp, hz⟩
    rw [hp, Finset.sum_eq_zero fun x hx => hz x (Finset.ne_of_mem_erase hx), Nat.add_zero]

theorem placesAt_eq_zero_iff (s : State) (n : Slot) (p : Port) :
    placesAt s n p = 0 ↔
      (∀ τ, n ∉ (s.port p).tierQueue τ) ∧ (s.port p).attached ≠ some n := by
  unfold placesAt
  constructor
  · intro h
    have hu : (s.port p).urgent.count n = 0 := by omega
    have hn : (s.port p).normal.count n = 0 := by omega
    refine ⟨fun τ => ?_, fun ha => ?_⟩
    · cases τ
      · exact List.count_eq_zero.1 hn
      · exact List.count_eq_zero.1 hu
    · rw [if_pos ha] at h
      omega
  · rintro ⟨hq, ha⟩
    have hu : n ∉ (s.port p).urgent := hq .urgent
    have hn : n ∉ (s.port p).normal := hq .normal
    rw [if_neg ha, List.count_eq_zero.2 hu, List.count_eq_zero.2 hn]

theorem placesOf_eq_zero_iff (s : State) (n : Slot) :
    placesOf s n = 0 ↔
      (∀ p τ, n ∉ (s.port p).tierQueue τ) ∧ ∀ p, (s.port p).attached ≠ some n := by
  rw [placesOf_eq_sum, Finset.sum_eq_zero_iff]
  simp only [Finset.mem_univ, true_implies, placesAt_eq_zero_iff, forall_and]

/-- Slot `n` stands once, at one place of the tier queue `τ` of port `p`. -/
theorem placesOf_eq_one_of_mem {s : State} {n : Slot} {p : Port} {τ : Tier}
    (h : n ∈ (s.port p).tierQueue τ) :
    placesOf s n = 1 ↔ ((s.port p).tierQueue τ).count n = 1
      ∧ (∀ x σ, n ∈ (s.port x).tierQueue σ → x = p ∧ σ = τ)
      ∧ ∀ x, (s.port x).attached ≠ some n := by
  have hc : 1 ≤ ((s.port p).tierQueue τ).count n := List.count_pos_iff.2 h
  have hpos : 1 ≤ placesAt s n p := by
    unfold placesAt
    cases τ <;> simp only [PortRec.tierQueue] at hc <;> omega
  rw [placesOf_eq_sum, sum_eq_one_iff hpos]
  simp only [placesAt_eq_zero_iff]
  constructor
  · rintro ⟨hp, hx⟩
    have here : ((s.port p).tierQueue τ).count n = 1 ∧ (s.port p).attached ≠ some n
        ∧ ∀ σ, n ∈ (s.port p).tierQueue σ → σ = τ := by
      unfold placesAt at hp
      have ha : (s.port p).attached ≠ some n := fun ha => by
        rw [if_pos ha] at hp
        cases τ <;> simp only [PortRec.tierQueue] at hc <;> omega
      rw [if_neg ha] at hp
      refine ⟨?_, ha, fun σ hσ => ?_⟩
      · cases τ <;> simp only [PortRec.tierQueue] at hc ⊢ <;> omega
      · have hs := List.count_pos_iff.2 hσ
        cases τ <;> cases σ <;> simp only [PortRec.tierQueue] at hc hs ⊢ <;> omega
    refine ⟨here.1, fun x σ hm => ?_, fun x => ?_⟩
    · by_cases hxp : x = p
      · subst hxp
        exact ⟨rfl, here.2.2 σ hm⟩
      · exact absurd hm ((hx x hxp).1 σ)
    · by_cases hxp : x = p
      · subst hxp
        exact here.2.1
      · exact (hx x hxp).2
  · rintro ⟨hone, honly, hatt⟩
    refine ⟨?_, fun x hx => ⟨fun σ hm => hx (honly x σ hm).1, hatt x⟩⟩
    have hother (σ : Tier) (hσ : σ ≠ τ) : ((s.port p).tierQueue σ).count n = 0 :=
      List.count_eq_zero.2 fun hm => hσ (honly p σ hm).2
    unfold placesAt
    rw [if_neg (hatt p)]
    cases τ
    · have := hother .urgent (by simp)
      simp only [PortRec.tierQueue] at hone this
      omega
    · have := hother .normal (by simp)
      simp only [PortRec.tierQueue] at hone this
      omega

/-- Slot `n` is attached to port `p`, and is in no other place. -/
theorem placesOf_eq_one_of_attached {s : State} {n : Slot} {p : Port}
    (h : (s.port p).attached = some n) :
    placesOf s n = 1 ↔ (∀ x σ, n ∉ (s.port x).tierQueue σ)
      ∧ ∀ x, (s.port x).attached = some n → x = p := by
  have hpos : 1 ≤ placesAt s n p := by
    unfold placesAt
    rw [if_pos h]
    omega
  rw [placesOf_eq_sum, sum_eq_one_iff hpos]
  simp only [placesAt_eq_zero_iff]
  constructor
  · rintro ⟨hp, hx⟩
    have here : ∀ σ, n ∉ (s.port p).tierQueue σ := by
      unfold placesAt at hp
      rw [if_pos h] at hp
      intro σ hm
      have := List.count_pos_iff.2 hm
      cases σ <;> simp only [PortRec.tierQueue] at this <;> omega
    refine ⟨fun x σ => ?_, fun x ha => ?_⟩
    · by_cases hxp : x = p
      · subst hxp
        exact here σ
      · exact (hx x hxp).1 σ
    · by_contra hxp
      exact (hx x hxp).2 ha
  · rintro ⟨hq, ha⟩
    refine ⟨?_, fun x hx => ⟨hq x, fun hm => hx (ha x hm)⟩⟩
    have hu : n ∉ (s.port p).urgent := hq p .urgent
    have hn : n ∉ (s.port p).normal := hq p .normal
    unfold placesAt
    rw [if_pos h, List.count_eq_zero.2 hu, List.count_eq_zero.2 hn]

/-- What a slot's record asks of its place. -/
def InPlace (s : State) (n : Slot) : Prop :=
  match (s.run n).state with
  | .free => placesOf s n = 0 ∧ s.run n = freeRun
  | .pending => placesOf s n = 1 ∧ (s.run n).resv = none ∧ (s.run n).mark = false
      ∧ ∃ p, (s.run n).port = some p ∧ n ∈ (s.port p).tierQueue (s.run n).tier
  | .active | .awaiting =>
    placesOf s n = 1 ∧ ∃ p, (s.run n).port = some p ∧ (s.port p).attached = some n

theorem slotPlaced_iff (s : State) (n : Slot) : slotPlaced s n = true ↔ InPlace s n := by
  simp only [slotPlaced, InPlace]
  cases (s.run n).state <;> cases (s.run n).port <;> simp [and_assoc]

theorem InPlace.one_of_mem {s : State} {n : Slot} (h : InPlace s n) {p : Port} {τ : Tier}
    (hm : n ∈ (s.port p).tierQueue τ) : placesOf s n = 1 := by
  unfold InPlace at h
  split at h
  · exact absurd hm (((placesOf_eq_zero_iff s n).1 h.1).1 p τ)
  · exact h.1
  · exact h.1
  · exact h.1

theorem InPlace.seated {s : State} {n : Slot} (h : InPlace s n) : Seated s n := by
  unfold InPlace at h
  cases hst : (s.run n).state with
  | free =>
    simp only [hst] at h
    obtain ⟨hq, ha⟩ := (placesOf_eq_zero_iff s n).1 h.1
    exact ⟨fun p τ => by simp [hq, hst], fun p => by simp [ha, Run.isAttached, hst], by simp [hst],
      by simp [hst], fun _ => h.2⟩
  | pending =>
    simp only [hst] at h
    obtain ⟨hone, hresv, hmark, p, hp, hm⟩ := h
    obtain ⟨-, honly, hatt⟩ := (placesOf_eq_one_of_mem hm).1 hone
    refine ⟨fun x σ => ⟨fun hx => ?_, ?_⟩, fun x => by simp [hatt, Run.isAttached, hst],
      fun _ => ⟨hresv, hmark⟩, fun _ => ⟨p, hp⟩, by simp [hst]⟩
    · obtain ⟨rfl, rfl⟩ := honly x σ hx
      exact ⟨hst, hp, rfl⟩
    · rintro ⟨-, hx, rfl⟩
      obtain rfl := Option.some.inj (hp.symm.trans hx)
      exact hm
  | active | awaiting =>
    simp only [hst] at h
    obtain ⟨hone, p, hp, ha⟩ := h
    obtain ⟨hq, honly⟩ := (placesOf_eq_one_of_attached ha).1 hone
    refine ⟨fun x σ => by simp [hq, hst], fun x => ⟨fun hx => ?_, ?_⟩, by simp [hst],
      fun _ => ⟨p, hp⟩, by simp [hst]⟩
    · obtain rfl := honly x hx
      exact ⟨by simp [Run.isAttached, hst], hp⟩
    · rintro ⟨-, hx⟩
      obtain rfl := Option.some.inj (hp.symm.trans hx)
      exact ha

theorem Seated.inPlace {s : State} {n : Slot} (h : Seated s n)
    (nodup : ∀ p τ, ((s.port p).tierQueue τ).Nodup) : InPlace s n := by
  unfold InPlace
  cases hst : (s.run n).state with
  | free =>
    refine ⟨(placesOf_eq_zero_iff s n).2 ⟨fun p τ => ?_, fun p => ?_⟩, h.free hst⟩
    · simp [h.queue, hst]
    · simp [h.attached, Run.isAttached, hst]
  | pending =>
    obtain ⟨p, hp⟩ := h.located (by simp [hst])
    have hm : n ∈ (s.port p).tierQueue (s.run n).tier := (h.queue p _).2 ⟨hst, hp, rfl⟩
    refine ⟨(placesOf_eq_one_of_mem hm).2 ⟨List.count_eq_one_of_mem (nodup p _) hm, fun x σ hx => ?_,
      fun x => ?_⟩, (h.pending hst).1, (h.pending hst).2, p, hp, hm⟩
    · obtain ⟨-, hx, hσ⟩ := (h.queue x σ).1 hx
      exact ⟨Option.some.inj (hx.symm.trans hp), hσ.symm⟩
    · simp [h.attached, Run.isAttached, hst]
  | active | awaiting =>
    obtain ⟨p, hp⟩ := h.located (by simp [hst])
    have ha : (s.port p).attached = some n := (h.attached p).2 ⟨by simp [Run.isAttached, hst], hp⟩
    refine ⟨(placesOf_eq_one_of_attached ha).2 ⟨fun x σ => by simp [h.queue, hst], fun x hx => ?_⟩,
      p, hp, ha⟩
    exact Option.some.inj (((h.attached x).1 hx).2.symm.trans hp)

/-- The law `slotPlaced` of every slot says that every run is in place. -/
theorem placed_iff (s : State) : (∀ n, slotPlaced s n = true) ↔ Placed s := by
  simp only [slotPlaced_iff]
  constructor
  · refine fun h => ⟨fun p τ => List.nodup_iff_count_le_one.2 fun m => ?_, fun n => (h n).seated⟩
    by_cases hm : m ∈ (s.port p).tierQueue τ
    · exact le_of_eq ((placesOf_eq_one_of_mem hm).1 ((h m).one_of_mem hm)).1
    · rw [List.count_eq_zero.2 hm]
      exact Nat.zero_le 1
  · exact fun h n => (h.seated n).inPlace h.nodup

end Sys2Proof.Machine
end

section
/-! Every step keeps every run in its place (03 R37, R38; 05 5.4): each move and each setting does. -/

namespace Sys2Proof.Machine

-- What a port's state asks of its items (05 5.4)

/-- Port record `P` holds what its state has, with an attached run in state `st`, if any. -/
def PortRec.serves (P : PortRec) (st : Option RunState) : Bool :=
  match P.state with
  | .off | .idle | .halted => st.isNone && P.frame.isNone && P.interval.isNone && P.cut == .none
  | .shifting =>
    P.frame.isSome && P.interval.isNone && P.clockTarget.isSome
      && (match st with
        | some x => P.cut == .none && x == .active
        | none => P.cut != .none)
  | .await =>
    P.frame.isNone && P.interval.isSome && P.cut == .none && P.clockTarget.isSome
      && st == some .awaiting
  | .gap =>
    P.frame.isNone && P.interval.isSome && P.cut == .none && P.clockTarget.isSome
      && (st == none || st == some .active)

/-- The state of the run attached to port `p`. -/
def servedState (s : State) (p : Port) : Option RunState :=
  (s.port p).attached.map fun n => (s.run n).state

theorem portCoherent_eq (s : State) (p : Port) :
    portCoherent s p = (s.port p).serves (servedState s p) := by
  simp only [portCoherent, PortRec.serves, servedState]
  rcases (s.port p).attached with _ | n <;> cases (s.port p).state <;> simp

theorem runsPlaced_iff (s : State) :
    RunsPlaced s ↔ Placed s ∧ ∀ p, (s.port p).serves (servedState s p) = true := by
  simp only [RunsPlaced, placed_iff, portCoherent_eq]

/-- Two port records alike in the items that the port's state asks for. -/
def PortRec.Alike (P P' : PortRec) : Prop :=
  P'.state = P.state ∧ P'.attached = P.attached ∧ P'.frame.isSome = P.frame.isSome
    ∧ P'.interval.isSome = P.interval.isSome ∧ P'.cut = P.cut ∧ P'.clockTarget = P.clockTarget

theorem PortRec.Alike.serves {P P' : PortRec} (h : P.Alike P') (st : Option RunState) :
    P'.serves st = P.serves st := by
  obtain ⟨hs, ha, hf, hi, hc, ht⟩ := h
  simp only [PortRec.serves, hs, hc, ht, ← Option.not_isSome, hf, hi]

/-- The tier queues of a port changed only by slot `n`. -/
def PortRec.QueuesBut (P P' : PortRec) (n : Slot) : Prop :=
  ∀ τ, (P'.tierQueue τ).Nodup ∧ ∀ m, m ≠ n → (m ∈ P'.tierQueue τ ↔ m ∈ P.tierQueue τ)

theorem PortRec.Vacates.attached {P P' : PortRec} (h : P.Vacates P') : P'.attached = none := by
  cases h <;> rfl

theorem PortRec.Vacates.tierQueue {P P' : PortRec} (h : P.Vacates P') (τ : Tier) :
    P'.tierQueue τ = P.tierQueue τ := by
  cases h <;> rfl

theorem PortRec.Vacates.serves {P P' : PortRec} (h : P.Vacates P') {st : Option RunState}
    (hs : P.serves st = true) : P'.serves none = true := by
  cases h with
  | cleared st h => rcases h with rfl | rfl | rfl <;> simp [PortRec.serves]
  | gap g h => rcases h with h | h <;> simp_all [PortRec.serves]
  | left st hst h => rcases hst with rfl | rfl <;> simp_all [PortRec.serves]
  | inGap h => simp_all [PortRec.serves]
  | cutAt c f hc h hf hb => simp_all [PortRec.serves]

theorem PortRec.serves_frameStarted (P : PortRec) (m : Mem) (n : Slot) (c : DescCopy) :
    (P.frameStarted m n c).serves (some .active) = true := by
  simp [PortRec.serves, PortRec.frameStarted]

theorem PortRec.serves_keptGap {P : PortRec} {st : Option RunState} (g : Nat)
    (h : P.state = .shifting ∨ P.state = .await) (hs : P.serves st = true) :
    (P.keptGap g).serves (some .active) = true := by
  rcases h with h | h <;> simp_all [PortRec.serves, PortRec.keptGap]

-- Which places a run is not in

theorem Placed.not_queued_of_attached {s : State} (h : Placed s) {p : Port} {n : Slot}
    (att : (s.port p).attached = some n) (x : Port) (τ : Tier) : n ∉ (s.port x).tierQueue τ := by
  intro hm
  have ha := ((h.seated n).attached p).1 att
  have hq := ((h.seated n).queue x τ).1 hm
  simp [Run.isAttached, hq.1] at ha

theorem Placed.attached_only {s : State} (h : Placed s) {p x : Port} {n : Slot}
    (att : (s.port p).attached = some n) : (s.port x).attached = some n ↔ x = p := by
  constructor
  · intro hx
    have ha := ((h.seated n).attached p).1 att
    have hb := ((h.seated n).attached x).1 hx
    exact Option.some.inj (hb.2.symm.trans ha.2)
  · rintro rfl
    exact att

theorem Placed.not_attached_of_queued {s : State} (h : Placed s) {p : Port} {τ : Tier} {n : Slot}
    (hm : n ∈ (s.port p).tierQueue τ) (x : Port) : (s.port x).attached ≠ some n := fun hx =>
  h.not_queued_of_attached hx p τ hm

theorem Placed.nowhere_of_free {s : State} (h : Placed s) {n : Slot} (hf : (s.run n).state = .free) :
    (∀ p τ, n ∉ (s.port p).tierQueue τ) ∧ ∀ p, (s.port p).attached ≠ some n := by
  refine ⟨fun p τ => ?_, fun p => ?_⟩
  · simp [(h.seated n).queue, hf]
  · simp [(h.seated n).attached, Run.isAttached, hf]

/-- Slot `n` is in no place of port `x`. -/
def State.Away (s : State) (n : Slot) (x : Port) : Prop :=
  (∀ τ, n ∉ (s.port x).tierQueue τ) ∧ (s.port x).attached ≠ some n

theorem Placed.away_of_attached {s : State} (h : Placed s) {p : Port} {n : Slot}
    (att : (s.port p).attached = some n) {x : Port} (hx : x ≠ p) : s.Away n x :=
  ⟨h.not_queued_of_attached att x, fun ha => hx ((h.attached_only att).1 ha)⟩

theorem Placed.away_of_queued {s : State} (h : Placed s) {p : Port} {τ : Tier} {n : Slot}
    (hm : n ∈ (s.port p).tierQueue τ) {x : Port} (hx : x ≠ p) : s.Away n x := by
  refine ⟨fun σ hσ => hx ?_, h.not_attached_of_queued hm x⟩
  have hp := ((h.seated n).queue p τ).1 hm
  have hq := ((h.seated n).queue x σ).1 hσ
  exact Option.some.inj (hq.2.1.symm.trans hp.2.1)

theorem Placed.away_of_free {s : State} (h : Placed s) {n : Slot} (hf : (s.run n).state = .free)
    (x : Port) : s.Away n x :=
  ⟨(h.nowhere_of_free hf).1 x, (h.nowhere_of_free hf).2 x⟩

/-- The run of slot `n` changed and port `p` changed with it, the other runs and ports as they were. -/
theorem RunsPlaced.of_others {s t : State} (h : RunsPlaced s) (p : Port) (n : Slot)
    (runs : ∀ m, m ≠ n → t.run m = s.run m) (ports : ∀ x, x ≠ p → t.port x = s.port x)
    (away : ∀ x, x ≠ p → s.Away n x) (queues : (s.port p).QueuesBut (t.port p) n)
    (attached : ∀ m, m ≠ n → ((t.port p).attached = some m ↔ (s.port p).attached = some m))
    (own_queue : ∀ τ, n ∈ (t.port p).tierQueue τ ↔ (t.run n).state = .pending ∧ (t.run n).tier = τ)
    (own_attached : (t.port p).attached = some n ↔ (t.run n).isAttached = true)
    (own_port : (t.run n).state ≠ .free → (t.run n).port = some p)
    (own_pending : (t.run n).state = .pending → (t.run n).resv = none ∧ (t.run n).mark = false)
    (own_free : (t.run n).state = .free → t.run n = freeRun)
    (serves : (t.port p).serves (servedState t p) = true) : RunsPlaced t := by
  rw [runsPlaced_iff] at h ⊢
  obtain ⟨hp, hc⟩ := h
  have elsewhere {x : Port} (hx : x ≠ p) (hst : (t.run n).state ≠ .free) :
      (t.run n).port ≠ some x := by
    rw [own_port hst]
    exact fun e => hx (Option.some.inj e).symm
  refine ⟨⟨fun x τ => ?_, fun m => ?_⟩, fun x => ?_⟩
  · by_cases hx : x = p
    · exact hx ▸ (queues τ).1
    · rw [ports x hx]; exact hp.nodup x τ
  · by_cases hm : m = n
    · subst hm
      refine ⟨fun x τ => ?_, fun x => ?_, own_pending, fun hst => ⟨p, own_port hst⟩, own_free⟩
      · by_cases hx : x = p
        · subst hx
          rw [own_queue]
          exact ⟨fun ⟨a, b⟩ => ⟨a, own_port (by simp [a]), b⟩, fun ⟨a, _, b⟩ => ⟨a, b⟩⟩
        · rw [ports x hx]
          exact ⟨fun hq => absurd hq ((away x hx).1 τ),
            fun ⟨a, b, _⟩ => absurd b (elsewhere hx (by simp [a]))⟩
      · by_cases hx : x = p
        · subst hx
          rw [own_attached]
          exact ⟨fun a => ⟨a, own_port fun hf => by simp [Run.isAttached, hf] at a⟩, fun a => a.1⟩
        · rw [ports x hx]
          exact ⟨fun ha => absurd ha (away x hx).2, fun ⟨a, b⟩ =>
            absurd b (elsewhere hx fun hf => by simp [Run.isAttached, hf] at a)⟩
    · obtain ⟨hq, ha, hpend, hl, hf⟩ := hp.seated m
      refine ⟨fun x τ => ?_, fun x => ?_, ?_, ?_, ?_⟩
      · rw [runs m hm, ← hq]
        by_cases hx : x = p
        · exact hx ▸ (queues τ).2 m hm
        · rw [ports x hx]
      · rw [runs m hm, ← ha]
        by_cases hx : x = p
        · exact hx ▸ attached m hm
        · rw [ports x hx]
      all_goals rw [runs m hm]; assumption
  · by_cases hx : x = p
    · exact hx ▸ serves
    · have hsame : servedState t x = servedState s x := by
        simp only [servedState, ports x hx]
        refine Option.map_congr fun m hm => ?_
        rw [runs m fun e => (away x hx).2 (e ▸ hm)]
      rw [ports x hx, hsame]
      exact hc x

/-- Every port's items alike, and every run as it was. -/
theorem RunsPlaced.of_alike {s t : State} (h : RunsPlaced s) (runs : ∀ n, t.run n = s.run n)
    (ports : ∀ p, (s.port p).Alike (t.port p))
    (queues : ∀ p τ, (t.port p).tierQueue τ = (s.port p).tierQueue τ) : RunsPlaced t := by
  rw [runsPlaced_iff] at h ⊢
  obtain ⟨hp, hc⟩ := h
  have att (p : Port) : (t.port p).attached = (s.port p).attached := (ports p).2.1
  refine ⟨⟨fun p τ => ?_, fun n => ?_⟩, fun p => ?_⟩
  · rw [queues]; exact hp.nodup p τ
  · obtain ⟨hq, ha, hpend, hl, hf⟩ := hp.seated n
    refine ⟨fun p τ => ?_, fun p => ?_, ?_, ?_, ?_⟩
    · rw [queues, runs]; exact hq p τ
    · rw [att, runs]; exact ha p
    all_goals rw [runs]; assumption
  · rw [(ports p).serves, servedState, att]
    simp only [runs]
    exact hc p

/-- The run attached to port `p` ended, or changed and still attached. -/
theorem RunsPlaced.of_attached {s t : State} (h : RunsPlaced s) {p : Port} {n : Slot}
    (att : (s.port p).attached = some n)
    (runs : ∀ m, m ≠ n → t.run m = s.run m) (ports : ∀ x, x ≠ p → t.port x = s.port x)
    (queues : ∀ τ, (t.port p).tierQueue τ = (s.port p).tierQueue τ)
    (stays : ((t.port p).attached = none ∧ t.run n = freeRun)
      ∨ ((t.port p).attached = some n ∧ (t.run n).isAttached = true
        ∧ (t.run n).port = (s.run n).port))
    (serves : (t.port p).serves (servedState t p) = true) : RunsPlaced t := by
  have hp := ((runsPlaced_iff s).1 h).1
  have hport := (((hp.seated n).attached p).1 att).2
  have hq (τ : Tier) : n ∉ (t.port p).tierQueue τ := by
    rw [queues]; exact hp.not_queued_of_attached att p τ
  have hb : (s.port p).QueuesBut (t.port p) n := fun τ => by
    rw [queues]; exact ⟨hp.nodup p τ, fun _ _ => Iff.rfl⟩
  rcases stays with ⟨ha, hr⟩ | ⟨ha, hr, hpt⟩
  · refine h.of_others p n runs ports (fun x => hp.away_of_attached att) hb (fun m hm => ?_)
      (fun τ => ?_) ?_ ?_ ?_ (fun _ => hr) serves
    · simp [ha, att, Ne.symm hm]
    · simp [hq, hr, freeRun]
    · simp [ha, hr, freeRun, Run.isAttached]
    · simp [hr, freeRun]
    · simp [hr, freeRun]
  · have hst : (t.run n).state ≠ .pending := fun e => by simp [Run.isAttached, e] at hr
    refine h.of_others p n runs ports (fun x => hp.away_of_attached att) hb (fun m hm => ?_)
      (fun τ => ?_) ?_ ?_ ?_ ?_ serves
    · simp [ha, att, Ne.symm hm]
    · simp [hq, hst]
    · simp [ha, hr]
    · exact fun _ => hpt.trans hport
    · exact fun e => absurd e hst
    · exact fun e => by simp [Run.isAttached, e] at hr

/-- A run put into a FREE slot and at the tail of its queue. -/
theorem RunsPlaced.of_tailed {s t : State} (h : RunsPlaced s) {p : Port} {n : Slot}
    (free : (s.run n).state = .free)
    (runs : ∀ m, m ≠ n → t.run m = s.run m) (ports : ∀ x, x ≠ p → t.port x = s.port x)
    (tail : t.port p = (s.port p).tailed (t.run n).tier n) (state : (t.run n).state = .pending)
    (port : (t.run n).port = some p) (resv : (t.run n).resv = none)
    (mark : (t.run n).mark = false) : RunsPlaced t := by
  have hp := ((runsPlaced_iff s).1 h).1
  obtain ⟨hq, ha⟩ := hp.nowhere_of_free free
  have hserve : servedState t p = servedState s p := by
    have : (t.port p).attached = (s.port p).attached := by
      rw [tail]; cases (t.run n).tier <;> rfl
    simp only [servedState, this]
    exact Option.map_congr fun m hm => by rw [runs m fun e => ha p (e ▸ hm)]
  refine h.of_others p n runs ports (fun x _ => hp.away_of_free free x) (fun τ => ?_)
    (fun m hm => ?_) (fun τ => ?_) ?_ (fun _ => port) (fun _ => ⟨resv, mark⟩) (by simp [state]) ?_
  · rw [tail]
    have hn := hp.nodup p τ
    have hm := hq p τ
    cases τ <;> cases (t.run n).tier <;>
      simp_all [PortRec.tailed, PortRec.tierQueue, List.nodup_append]
    all_goals exact fun a ha e => hm (e ▸ ha)
  · rw [tail]; cases (t.run n).tier <;> rfl
  · rw [tail]
    have hm := hq p τ
    cases τ <;> cases (t.run n).tier <;> simp_all [PortRec.tailed, PortRec.tierQueue]
  · have : (t.port p).attached ≠ some n := by
      rw [tail]; cases (t.run n).tier <;> exact ha p
    simp [this, Run.isAttached, state]
  · rw [hserve, tail]
    have := ((runsPlaced_iff s).1 h).2 p
    cases (t.run n).tier <;> exact this

end Sys2Proof.Machine
end

section
/-! Each move and each setting keeps every run in its place (03 R37, R38; 05 5.4). -/

namespace Sys2Proof.Machine

theorem runGone_run (s : State) (n m : Slot) :
    (runGone s n).run m = if m = n then freeRun else s.run m :=
  State.setRun_run _ n freeRun m

theorem RunsPlaced.placed {s : State} (h : RunsPlaced s) : Placed s := ((runsPlaced_iff s).1 h).1

theorem RunsPlaced.serves {s : State} (h : RunsPlaced s) (p : Port) :
    (s.port p).serves (servedState s p) = true := ((runsPlaced_iff s).1 h).2 p

theorem RunsPlaced.serves_attached {s : State} (h : RunsPlaced s) {p : Port} {n : Slot}
    (att : (s.port p).attached = some n) : (s.port p).serves (some (s.run n).state) = true := by
  have := h.serves p
  rwa [servedState, att] at this

theorem RunsPlaced.isAttached {s : State} (h : RunsPlaced s) {p : Port} {n : Slot}
    (att : (s.port p).attached = some n) :
    (s.run n).isAttached = true ∧ (s.run n).port = some p :=
  ((h.placed.seated n).attached p).1 att

/-- The run of an attached port is ACTIVE or AWAITING. -/
theorem RunsPlaced.ne_pending {s : State} (h : RunsPlaced s) {p : Port} {n : Slot}
    (att : (s.port p).attached = some n) : (s.run n).state ≠ .pending ∧ (s.run n).state ≠ .free := by
  have := (h.isAttached att).1
  constructor <;> intro e <;> simp [Run.isAttached, e] at this

/-- The port of an attached run is SHIFTING, AWAIT or GAP, and its run ACTIVE but in AWAIT. -/
theorem RunsPlaced.attached_state {s : State} (h : RunsPlaced s) {p : Port} {n : Slot}
    (att : (s.port p).attached = some n) :
    ((s.port p).state = .shifting ∧ (s.run n).state = .active)
      ∨ ((s.port p).state = .await ∧ (s.run n).state = .awaiting)
      ∨ ((s.port p).state = .gap ∧ (s.run n).state = .active) := by
  have := h.serves_attached att
  cases hs : (s.port p).state <;> simp_all [PortRec.serves]

theorem PortRec.frameStarted_tierQueue (P : PortRec) (m : Mem) (n : Slot) (c : DescCopy) (τ : Tier) :
    (P.frameStarted m n c).tierQueue τ = P.tierQueue τ := by cases τ <;> rfl

theorem PortRec.Vacates.withQueues {P P' : PortRec} (h : P.Vacates P') (u n : List Slot) :
    PortRec.Vacates { P with urgent := u, normal := n } { P' with urgent := u, normal := n } := by
  cases h with
  | cleared st h => exact .cleared st h
  | gap g h => exact .gap g h
  | left st hs h => exact .left st hs h
  | inGap h => exact .inGap h
  | cutAt c f hc h hf hb => exact .cutAt c f hc h hf hb

/-- The end of an attached run (03 R59). -/
theorem RunsPlaced.vacate {s t : State} (h : RunsPlaced s) {p : Port} {n : Slot}
    (att : (s.port p).attached = some n) (gone : t.run n = freeRun)
    (runs : ∀ m, m ≠ n → t.run m = s.run m) (ports : ∀ x, x ≠ p → t.port x = s.port x)
    (port : (s.port p).Vacates (t.port p)) : RunsPlaced t := by
  refine h.of_attached att runs ports port.tierQueue (.inl ⟨port.attached, gone⟩) ?_
  rw [servedState, port.attached]
  exact port.serves (h.serves_attached att)

/-- An event on an attached run that stays attached. -/
theorem RunsPlaced.stay {s : State} (h : RunsPlaced s) {p : Port} {n : Slot} {P : PortRec} {r : Run}
    (att : (s.port p).attached = some n) (queues : ∀ τ, P.tierQueue τ = (s.port p).tierQueue τ)
    (attached : P.attached = some n) (state : r.isAttached = true) (port : r.port = (s.run n).port)
    (serves : P.serves (some r.state) = true) : RunsPlaced ((s.setRun n r).setPort p P) := by
  refine h.of_attached att (fun m hm => by simp [State.setRun_run, hm])
    (fun x hx => by simp [State.setPort_port, hx]) (fun τ => by
    simp [queues]) (.inr ?_) ?_
  · simp [attached, state, port]
  · simpa [servedState, attached] using serves

/-- A PENDING run that leaves its queue, ended or granted. -/
theorem RunsPlaced.leave {s t : State} (h : RunsPlaced s) {p : Port} {τ : Tier} {n : Slot}
    (queued : n ∈ (s.port p).tierQueue τ)
    (runs : ∀ m, m ≠ n → t.run m = s.run m) (ports : ∀ x, x ≠ p → t.port x = s.port x)
    (queues : ∀ σ, (t.port p).tierQueue σ =
      if σ = τ then ((s.port p).tierQueue σ).erase n else (s.port p).tierQueue σ)
    (leaves : (t.run n = freeRun ∧ (t.port p).attached = (s.port p).attached)
      ∨ ((t.run n).isAttached = true ∧ (t.run n).port = (s.run n).port
        ∧ (s.port p).attached = none ∧ (t.port p).attached = some n))
    (serves : (t.port p).serves (servedState t p) = true) : RunsPlaced t := by
  have hp := h.placed
  obtain ⟨hst, hport, htier⟩ := ((hp.seated n).queue p τ).1 queued
  have hq (σ : Tier) : n ∉ (t.port p).tierQueue σ := by
    rw [queues]
    split
    · exact fun hm => (hp.nodup p σ).mem_erase_iff.1 hm |>.1 rfl
    · next hσ => exact fun hm => hσ (((hp.seated n).queue p σ).1 hm |>.2.2 ▸ htier)
  have hb : (s.port p).QueuesBut (t.port p) n := fun σ => by
    rw [queues]
    split
    · exact ⟨(hp.nodup p σ).erase n, fun m hm => List.mem_erase_of_ne hm⟩
    · exact ⟨hp.nodup p σ, fun _ _ => Iff.rfl⟩
  rcases leaves with ⟨hr, ha⟩ | ⟨hr, hpt, hnone, ha⟩
  · refine h.of_others p n runs ports (fun x => hp.away_of_queued queued) hb (fun m _ => by rw [ha])
      (fun σ => ?_) ?_ ?_ ?_ (fun _ => hr) serves
    · simp [hq, hr, freeRun]
    · rw [ha]
      simp [hp.not_attached_of_queued queued, hr, freeRun, Run.isAttached]
    · simp [hr, freeRun]
    · simp [hr, freeRun]
  · have hne : (t.run n).state ≠ .pending := fun e => by simp [Run.isAttached, e] at hr
    refine h.of_others p n runs ports (fun x => hp.away_of_queued queued) hb (fun m hm => ?_)
      (fun σ => ?_) ?_ (fun _ => hpt.trans hport) (fun e => absurd e hne)
      (fun e => by simp [Run.isAttached, e] at hr) serves
    · simp [ha, hnone, Ne.symm hm]
    · simp [hq, hne]
    · simp [ha, hr]

/-- The pool after a re-queue, in two steps: the run ends on its port, and enters the tail (03 R54). -/
theorem RunsPlaced.requeue {s t : State} (h : RunsPlaced s) {p p' : Port} {n : Slot} {r : Run}
    {P : PortRec} (att : (s.port p).attached = some n)
    (runs : ∀ m, t.run m = if m = n then r else s.run m)
    (ports : ∀ x, t.port x = if x = p then P else if x = p' then (s.port p').tailed r.tier n
      else s.port x)
    (port : (if p = p' then (s.port p').tailed r.tier n else s.port p).Vacates P)
    (state : r.state = .pending) (located : r.port = some p') (resv : r.resv = none)
    (mark : r.mark = false) : RunsPlaced t := by
  let u : State := (s.setRun n freeRun).setPort p
    { P with urgent := (s.port p).urgent, normal := (s.port p).normal }
  have hv : (s.port p).Vacates { P with urgent := (s.port p).urgent, normal := (s.port p).normal } := by
    have := port.withQueues (s.port p).urgent (s.port p).normal
    split at this
    · next e => subst e; cases hr : r.tier <;> simpa [hr, PortRec.tailed] using this
    · exact this
  have hu : RunsPlaced u := by
    refine h.vacate att ?_ (fun m hm => ?_) (fun x hx => ?_) ?_
    · simp [u]
    · simp [u, State.setRun_run, hm]
    · simp [u, State.setPort_port, hx]
    · simpa [u] using hv
  refine hu.of_tailed (p := p') (n := n) (by simp [u, freeRun]) (fun m hm => by simp [u, State.setRun_run, runs, hm])
    (fun x hx => ?_) ?_ (by simp [runs, state]) (by simp [runs, located]) (by simp [runs, resv])
    (by simp [runs, mark])
  · rw [ports]
    by_cases hxp : x = p
    · subst hxp
      have hu' := port.tierQueue .urgent
      have hn' := port.tierQueue .normal
      simp only [if_neg hx, PortRec.tierQueue] at hu' hn'
      simp [u, ← hu', ← hn']
    · simp [u, State.setPort_port, hx, hxp]
  · rw [ports, runs]
    by_cases hxp : p' = p
    · subst hxp
      have hu' := port.tierQueue .urgent
      have hn' := port.tierQueue .normal
      simp only [if_true, PortRec.tierQueue] at hu' hn'
      cases hr : r.tier <;> simp_all [u, PortRec.tailed] <;> rw [← hu', ← hn']
    · simp [u, State.setPort_port, hxp]

end Sys2Proof.Machine
end

section
/-! Every step but PORT_RESET keeps every run in its place (03 R37, R38): by the moves and the settings. -/

namespace Sys2Proof.Machine

/-- Port record `P` with slot `n` out of its tier queue `τ` (04 R67). -/
def PortRec.without (P : PortRec) (τ : Tier) (n : Slot) : PortRec :=
  match τ with
  | .urgent => { P with urgent := P.urgent.erase n }
  | .normal => { P with normal := P.normal.erase n }

theorem PortRec.without_tierQueue (P : PortRec) (τ σ : Tier) (n : Slot) :
    (P.without τ n).tierQueue σ = if σ = τ then (P.tierQueue σ).erase n else P.tierQueue σ := by
  cases τ <;> cases σ <;> rfl

theorem PortRec.without_attached (P : PortRec) (τ : Tier) (n : Slot) :
    (P.without τ n).attached = P.attached := by cases τ <;> rfl

theorem PortRec.without_alike (P : PortRec) (τ : Tier) (n : Slot) : P.Alike (P.without τ n) := by
  cases τ <;> exact ⟨rfl, rfl, rfl, rfl, rfl, rfl⟩

theorem leaveQueue_eq (p : Port) (τ : Tier) (n : Slot) (s : State) :
    leaveQueue p τ n s = s.setPort p ((s.port p).without τ n) := by cases τ <;> rfl

/-- The record of a PENDING run that ends ABORTED (01 R16, 03 R63). -/
def abortedRecord (s : State) (n : Slot) : Record := formRecord s n .aborted []

/-- The state after a PENDING run's record: its slot still filled and queued. -/
def abortPosted (s : State) (n : Slot) : State :=
  posted s (copyQueue (s.run n).copy) (abortedRecord s n) false

@[simp] theorem abortPosted_run (s : State) (n m : Slot) : (abortPosted s n).run m = s.run m := rfl
@[simp] theorem abortPosted_port (s : State) (n : Slot) (p : Port) :
    (abortPosted s n).port p = s.port p := rfl

/-- A PENDING run of port `p` ended ABORTED (01 R16, 03 R63). -/
theorem endPending_of_port {s : State} {n : Slot} {p : Port} (hp : (s.run n).port = some p) :
    endPending n s = (runGone (abortPosted s n) n).setPort p
      ((s.port p).without (s.run n).tier n) := by
  simp only [endPending, hp, postFree_eq_posted, leaveQueue_eq, freeSlot_eq_runGone]
  rfl

theorem Placed.pending_seat {s : State} (h : Placed s) {n : Slot}
    (hn : (s.run n).state = .pending) :
    ∃ p, (s.run n).port = some p ∧ n ∈ (s.port p).tierQueue (s.run n).tier := by
  obtain ⟨p, hp⟩ := (h.seated n).located (by simp [hn])
  exact ⟨p, hp, ((h.seated n).queue p _).2 ⟨hn, hp, rfl⟩⟩

theorem RunsPlaced.endPending {s : State} (h : RunsPlaced s) {n : Slot}
    (hn : (s.run n).state = .pending) : RunsPlaced (endPending n s) := by
  obtain ⟨p, hp, hq⟩ := h.placed.pending_seat hn
  rw [endPending_of_port hp]
  refine h.leave hq (fun m hm => ?_) (fun x hx => ?_) (fun σ => ?_) (.inl ?_) ?_
  · simp [runGone_run, hm]
  · simp [State.setPort_port, hx]
  · rw [State.setPort_port_self, PortRec.without_tierQueue]
  · simp [PortRec.without_attached, runGone_run]
  · rw [State.setPort_port_self, (PortRec.without_alike _ _ _).serves]
    have hs := h.serves p
    have : servedState s p = servedState
        ((runGone (abortPosted s n) n).setPort p ((s.port p).without (s.run n).tier n)) p := by
      simp only [servedState, State.setPort_port_self, PortRec.without_attached]
      refine Option.map_congr fun m hm => ?_
      have hmn : m ≠ n := fun e => h.placed.not_attached_of_queued hq p (e ▸ hm)
      simp [runGone_run, hmn]
    rwa [← this]

/-- The port of a grant: its run out of the queue, the starvation counter updated (04 R70, R73). -/
def grantedFrom (P : PortRec) (τ : Tier) (n : Slot) (contested : Bool) : PortRec :=
  { P.without τ n with
    starveCount := countAfter P.starveCount τ contested }

theorem granted_port (s : State) (p : Port) (τ : Tier) (n : Slot) (c : Bool) :
    (granted s p τ n c).port p =
      (grantedFrom (s.port p) τ n c).frameStarted s.targets n (s.run n).copy := by
  have h : (granted s p τ n c).port p = _ := State.setPort_port_self s p _
  rw [h]
  cases τ
  · rfl
  · cases c <;> by_cases hc : (s.port p).starveCount = 15 <;>
      simp [grantedFrom, PortRec.without, countAfter, satInc, hc]

/-- A move on port `p` alone, its queues and its attached run as they were. -/
theorem RunsPlaced.setPort {s : State} (h : RunsPlaced s) {p : Port} {P : PortRec}
    (queues : ∀ τ, P.tierQueue τ = (s.port p).tierQueue τ)
    (att : P.attached = (s.port p).attached) (serves : P.serves (servedState s p) = true) :
    RunsPlaced (s.setPort p P) := by
  rw [runsPlaced_iff] at h ⊢
  obtain ⟨hp, hc⟩ := h
  have hq (x : Port) (τ : Tier) :
      ((s.setPort p P).port x).tierQueue τ = (s.port x).tierQueue τ := by
    rw [State.setPort_port]
    split
    · next e => exact e ▸ queues τ
    · rfl
  have ha (x : Port) : ((s.setPort p P).port x).attached = (s.port x).attached := by
    rw [State.setPort_port]
    split
    · next e => exact e ▸ att
    · rfl
  refine ⟨⟨fun x τ => hq x τ ▸ hp.nodup x τ, fun n => ?_⟩, fun x => ?_⟩
  · obtain ⟨a, b, c, d, e⟩ := hp.seated n
    exact ⟨fun x τ => hq x τ ▸ a x τ, fun x => ha x ▸ b x, c, d, e⟩
  · rw [servedState, ha, State.setPort_port]
    split
    · next e => exact e ▸ serves
    · exact hc x

/-- Every move keeps every run in its place. -/
theorem Move.runsPlaced {led : Port → Bool} {s t : State} (h : Move led s t) (hs : RunsPlaced s) :
    RunsPlaced t := by
  cases h with
  | missed src cause =>
    exact hs.of_alike (fun _ => rfl) (fun _ => ⟨rfl, rfl, rfl, rfl, rfl, rfl⟩) fun _ _ => rfl
  | admitted src n below free valid leads =>
    refine hs.of_tailed (p := targetPort s.targets (copyTarget (fetchCopy s.desc
      (s.trigger src).firstDesc))) (n := n) free (fun m hm => ?_) (fun x hx => ?_) ?_ ?_ ?_ ?_ ?_
    all_goals simp_all [queuedRun, oneMore, State.setRun_run, State.setPort_port, admittedRun]
  | rejected n q rec free =>
    have hn := (hs.placed.seated n).free free
    refine hs.of_alike (fun m => ?_) (fun _ => ⟨rfl, rfl, rfl, rfl, rfl, rfl⟩) fun _ _ => rfl
    by_cases hm : m = n
    · subst hm; simp [hn]
    · simp [State.setRun_run, hm]; rfl
  | ended p n P freed qs hp att queues port idle ret =>
    refine hs.vacate att ?_ (fun m hm => ?_) (fun x hx => ?_) ?_
    · simp [runGone_run]
    · simp [runGone_run, hm]
    · simp [State.setPort_port, hx]
    · simpa using port
  | requeued p p' n r P freed qs hp att unmarked queues run target port leads idle ret =>
    have hr := run
    refine hs.requeue att (r := r) (P := P) (p' := p') (fun m => ?_) (fun x => ?_) ?_ ?_ ?_ ?_ ?_
    · simp [queuedRun, State.setRun_run]
    · simp [queuedRun, State.setPort_port]
    · simpa [queuedRun, State.setPort_port] using port
    · rw [run]
    · rw [run]
    · rw [run]
    · rw [run]; exact unmarked
  | kept p n r P freed qs hp att unmarked queues run reserve valid target taken port ret =>
    have hst : r.state = .active := by rw [run]
    have hrp : r.port = (s.run n).port := by rw [run]
    have hs' : RunsPlaced (s.results qs hp) :=
      hs.of_alike (fun _ => rfl) (fun _ => ⟨rfl, rfl, rfl, rfl, rfl, rfl⟩) fun _ _ => rfl
    have hserve := hs.serves_attached att
    refine hs'.stay att ?_ ?_ (by simp [Run.isAttached, hst]) hrp ?_
    · rcases port with ⟨g, rfl, -⟩ | rfl <;> intro τ <;> cases τ <;> rfl
    · rcases port with ⟨g, rfl, -⟩ | rfl
      · exact att
      · rfl
    · rw [hst]
      rcases port with ⟨g, rfl, hg⟩ | rfl
      · exact PortRec.serves_keptGap g hg hserve
      · exact PortRec.serves_frameStarted _ _ _ _
  | framed p n att gap =>
    have hst : (s.run n).state = .active := by
      rcases hs.attached_state att with ⟨h, _⟩ | ⟨h, _⟩ | ⟨_, h⟩
      · simp [gap] at h
      · simp [gap] at h
      · exact h
    refine hs.stay att (PortRec.frameStarted_tierQueue _ _ _ _) rfl (hs.isAttached att).1 rfl ?_
    simp only [hst]
    exact PortRec.serves_frameStarted _ _ _ _
  | awaits p n att shifting =>
    have hserve := hs.serves_attached att
    refine hs.stay att (fun τ => by cases τ <;> rfl) att rfl rfl ?_
    simp_all [PortRec.serves]
  | vacated p P att port idle =>
    refine hs.setPort port.tierQueue (port.attached.trans att.symm) ?_
    rw [servedState, att]
    exact port.serves (hs.serves p)
  | switched p st dest resting idle =>
    refine hs.setPort (fun τ => by cases τ <;> rfl) rfl ?_
    have hserve := hs.serves p
    rcases resting with h | h | h <;> rcases dest with rfl | rfl <;>
      simpa [PortRec.serves, h] using hserve
  | sent p n f b att frame more =>
    refine hs.setPort (fun τ => by cases τ <;> rfl) rfl ?_
    have hserve := hs.serves p
    simp only [PortRec.serves, frame, Option.isSome_some] at hserve ⊢
    exact hserve
  | received p n f b att frame more =>
    refine hs.stay att (fun τ => by cases τ <;> rfl) att (hs.isAttached att).1 rfl ?_
    have hserve := hs.serves_attached att
    simp only [PortRec.serves, frame, Option.isSome_some] at hserve ⊢
    exact hserve
  | dropped n pending => exact hs.endPending pending
  | marked n att =>
    obtain ⟨p, hp⟩ := (hs.placed.seated n).located fun e => by simp [Run.isAttached, e] at att
    have hat := ((hs.placed.seated n).attached p).2 ⟨att, hp⟩
    have := hs.stay (P := s.port p) (r := { s.run n with mark := true }) hat (fun _ => rfl) hat att
      rfl (hs.serves_attached hat)
    exact (State.setPort_self (s.setRun n { s.run n with mark := true }) p) ▸ this
  | granted p τ n c idle queued elig =>
    have hnone : (s.port p).attached = none := by
      cases ha : (s.port p).attached with
      | none => rfl
      | some k =>
        have := hs.attached_state ha
        simp [idle] at this
    have hrun := granted_run_self s p τ n c
    refine hs.leave queued (fun m hm => granted_run_of_ne p τ c hm)
      (fun x hx => granted_port_of_ne τ n c hx) (fun σ => ?_) (.inr ⟨?_, ?_, hnone, ?_⟩) ?_
    · rw [granted_port, PortRec.frameStarted_tierQueue]
      exact PortRec.without_tierQueue _ _ _ _
    · rw [hrun]; rfl
    · rw [hrun]
    · exact (granted_port_self s p τ n c).2
    · rw [servedState, (granted_port_self s p τ n c).2, Option.map_some, hrun, granted_port]
      exact PortRec.serves_frameStarted _ _ _ _
  | counted ls ts k timers =>
    exact hs.of_alike (fun _ => rfl) (fun _ => ⟨rfl, rfl, rfl, rfl, rfl, rfl⟩) fun _ _ => rfl

end Sys2Proof.Machine
end

section
/-! Every change keeps every run in its place (03 R37, R38), and under that law PORT_RESET is a chain of
changes as well: the attached run ends, the port is left, the queued runs end, the settings are cleared (03
R63, 05 R102). -/

namespace Sys2Proof.Machine

theorem SameCore.run {s t : State} (h : SameCore s t) (n : Slot) : t.run n = s.run n := by
  simp only [State.run, h.1]

theorem SameCore.port {s t : State} (h : SameCore s t) (p : Port) : t.port p = s.port p := by
  simp only [State.port, h.2.1]

theorem SameCore.queue {s t : State} (h : SameCore s t) (q : QueueId) : t.queue q = s.queue q := by
  simp only [State.queue, h.2.2.1]

theorem SameCore.trigger {s t : State} (h : SameCore s t) (n : Source) :
    t.trigger n = s.trigger n := by
  simp only [State.trigger, h.2.2.2.1]

theorem SameCore.targets {s t : State} (h : SameCore s t) : t.targets = s.targets := h.2.2.2.2

theorem mapAll_port (s : State) (f : PortRec → PortRec) (p : Port) :
    ({ s with ports := mapAll f s.ports } : State).port p = f (s.port p) := mapAll_getElem f s.ports p

theorem SameCore.port_mapAll {s t : State} {f : PortRec → PortRec}
    (h : SameCore { s with ports := mapAll f s.ports } t) (p : Port) : t.port p = f (s.port p) :=
  (h.port p).trans (mapAll_port s f p)

theorem PortRec.Alike.refl (P : PortRec) : P.Alike P := ⟨rfl, rfl, rfl, rfl, rfl, rfl⟩

theorem passPort_eq_self_or (s : State) (k : Nat) (P : PortRec) :
    passPort s k P = P ∨ ∃ f c, P.state = .shifting ∧ P.frame = some f ∧ f.clocks ≤ c
      ∧ c ≤ max f.clocks (f.clocksTo (nextPoint s P f) - 1)
      ∧ passPort s k P = { P with frame := some { f with clocks := c } } := by
  unfold passPort
  split
  · exact .inl rfl
  next f hf =>
    split
    · next hs =>
      exact .inr ⟨f, _, hs, hf, le_max_left _ _, max_le_max le_rfl (min_le_right _ _), rfl⟩
    · exact .inl rfl

theorem passPort_alike (s : State) (k : Nat) (P : PortRec) : P.Alike (passPort s k P) := by
  rcases passPort_eq_self_or s k P with h | ⟨f, c, _, hf, _, _, h⟩
  · rw [h]; exact .refl P
  · rw [h]; exact ⟨rfl, rfl, by simp [hf], rfl, rfl, rfl⟩

theorem passPort_tierQueue (s : State) (k : Nat) (P : PortRec) (τ : Tier) :
    (passPort s k P).tierQueue τ = P.tierQueue τ := by
  rcases passPort_eq_self_or s k P with h | ⟨f, c, _, _, _, _, h⟩
  · rw [h]
  · rw [h]; cases τ <;> rfl

theorem countTick_isSome (i : Option Nat) : (countTick i).isSome = i.isSome := by cases i <;> rfl

theorem tickPort_eq (P : PortRec) : ∃ i, tickPort P = { P with interval := i }
    ∧ i.isSome = P.interval.isSome := by
  unfold tickPort
  split
  · exact ⟨_, rfl, countTick_isSome _⟩
  · exact ⟨_, rfl, rfl⟩

theorem tickPort_alike (P : PortRec) : P.Alike (tickPort P) := by
  obtain ⟨i, h, hi⟩ := tickPort_eq P
  rw [h]
  exact ⟨rfl, rfl, rfl, hi, rfl, rfl⟩

theorem tickPort_tierQueue (P : PortRec) (τ : Tier) : (tickPort P).tierQueue τ = P.tierQueue τ := by
  obtain ⟨i, h, hi⟩ := tickPort_eq P
  rw [h]
  cases τ <;> rfl

theorem PortRec.SameService.alike {P P' : PortRec} (h : P.SameService P') : P.Alike P' := by
  rw [h]; exact ⟨rfl, rfl, rfl, rfl, rfl, rfl⟩

theorem PortRec.SameService.tierQueue {P P' : PortRec} (h : P.SameService P') (τ : Tier) :
    P'.tierQueue τ = P.tierQueue τ := by
  rw [h]; cases τ <;> rfl

/-- Every setting keeps every run in its place. -/
theorem Setting.runsPlaced {led : Port → Bool} {s t : State} (h : Setting led s t)
    (hs : RunsPlaced s) : RunsPlaced t := by
  cases h with
  | outside t same =>
    exact hs.of_alike same.run (fun p => by rw [same.port]; exact .refl _) fun p τ => by
      rw [same.port]
  | target | entry | queue | quota =>
    exact hs.of_alike (fun _ => rfl) (fun _ => .refl _) fun _ _ => rfl
  | port p P service =>
    exact hs.setPort service.tierQueue service.alike.2.1 (by
      rw [service.alike.serves]; exact hs.serves p)
  | passes t k same =>
    exact hs.of_alike same.run (fun p => by rw [same.port_mapAll]; exact passPort_alike s k _)
      fun p τ => by rw [same.port_mapAll, passPort_tierQueue]
  | ticks t same =>
    exact hs.of_alike same.run (fun p => by rw [same.port_mapAll]; exact tickPort_alike _)
      fun p τ => by rw [same.port_mapAll, tickPort_tierQueue]

/-- The decisions that an event leads to keep every law that the moves keep. -/
theorem Decided.keeps {I : State → Prop} {led : Port → Bool} {m t : State} (h : Decided led m t)
    (move : ∀ {s t}, Move led s t → I s → I t) (hm : I m) : I t := by
  have hmoves := h.moves
  clear h
  induction hmoves with
  | refl => exact hm
  | tail _ hlast ih => exact move hlast ih

/-- A law that every move and every setting keeps is kept by every change. -/
theorem Change.keeps {I : State → Prop} {s t : State} (h : Change s t)
    (move : ∀ {led s t}, Move led s t → I s → I t)
    (setting : ∀ {led s t}, Setting led s t → I s → I t) (hs : I s) : I t := by
  obtain ⟨led, m, hm, hd⟩ := h
  exact hd.keeps move (hm.elim (fun h => move h hs) fun h => setting h hs)

theorem Change.runsPlaced {s t : State} (h : Change s t) (hs : RunsPlaced s) : RunsPlaced t :=
  h.keeps Move.runsPlaced Setting.runsPlaced hs

theorem Changes.keeps {I : State → Prop} {s t : State} (h : Changes s t)
    (change : ∀ {s t}, Change s t → I s → I t) (hs : I s) : I t := by
  induction h with
  | refl => exact hs
  | tail _ hlast ih => exact change hlast ih

theorem Changes.runsPlaced {s t : State} (h : Changes s t) (hs : RunsPlaced s) : RunsPlaced t :=
  h.keeps Change.runsPlaced hs

-- The resets

/-- No run in the pool, and every port left. -/
theorem runsPlaced_of_empty {s : State} (runs : ∀ n, s.run n = freeRun)
    (queues : ∀ p τ, (s.port p).tierQueue τ = []) (att : ∀ p, (s.port p).attached = none)
    (serves : ∀ p, (s.port p).serves none = true) : RunsPlaced s := by
  rw [runsPlaced_iff]
  refine ⟨⟨fun p τ => by simp [queues], fun n => ?_⟩, fun p => ?_⟩
  · refine ⟨fun p τ => ?_, fun p => ?_, ?_, ?_, fun _ => runs n⟩
    · simp [queues, runs, freeRun]
    · simp [att, runs, freeRun, Run.isAttached]
    · simp [runs, freeRun]
    · simp [runs, freeRun]
  · simpa [servedState, att] using serves p

theorem reset_run (n : Slot) : State.reset.run n = freeRun := by
  simp [State.run, State.reset]

theorem reset_port (p : Port) : State.reset.port p = resetPort := by
  simp [State.port, State.reset]

theorem runsPlaced_reset : RunsPlaced State.reset :=
  runsPlaced_of_empty reset_run (fun p τ => by rw [reset_port]; cases τ <;> rfl)
    (fun p => by rw [reset_port]; rfl) fun p => by rw [reset_port]; rfl

theorem startedUp_runsPlaced (s : State) : RunsPlaced (startedUp s) :=
  runsPlaced_reset.of_alike (fun _ => rfl) (fun _ => .refl _) fun _ _ => rfl

theorem engineReset_run (s : State) (n : Slot) : (engineReset s).run n = freeRun := by
  simp [State.run, engineReset]

theorem engineReset_port (s : State) (p : Port) :
    (engineReset s).port p = engineResetPort (s.port p) := mapAll_getElem _ s.ports p

theorem engineReset_runsPlaced (s : State) : RunsPlaced (engineReset s) :=
  runsPlaced_of_empty (engineReset_run s) (fun p τ => by rw [engineReset_port]; cases τ <;> rfl)
    (fun p => by rw [engineReset_port]; rfl) fun p => by rw [engineReset_port]; rfl

end Sys2Proof.Machine
end

section
/-! PORT_RESET, where every run is in its place, as a chain of changes: the attached run ends, the port is
left, the queued runs end in order, and the port's settings are cleared (03 R63, 05 R102). -/

namespace Sys2Proof.Machine

/-- Port `p` of state `s` changed by `f`. -/
def State.onPort (s : State) (p : Port) (f : PortRec → PortRec) : State := s.setPort p (f (s.port p))

@[simp] theorem State.onPort_port_self (s : State) (p : Port) (f : PortRec → PortRec) :
    (s.onPort p f).port p = f (s.port p) := State.setPort_port_self s p _

theorem State.onPort_port_of_ne {p x : Port} (h : x ≠ p) (s : State) (f : PortRec → PortRec) :
    (s.onPort p f).port x = s.port x := State.setPort_port_of_ne s h _

theorem State.onPort_onPort (s : State) (p : Port) (f g : PortRec → PortRec) :
    (s.onPort p f).onPort p g = s.onPort p (g ∘ f) := by
  simp only [State.onPort, State.setPort_port_self, State.setPort_setPort, Function.comp_apply]

/-- A change of a port's service that its tier queues do not see. -/
def SparesQueues (f : PortRec → PortRec) : Prop :=
  (∀ P τ, (f P).tierQueue τ = P.tierQueue τ) ∧ ∀ P τ n, f (P.without τ n) = (f P).without τ n

theorem endPending_onPort {f : PortRec → PortRec} (hf : SparesQueues f) (p : Port) (n : Slot)
    (s : State) : endPending n (s.onPort p f) = (endPending n s).onPort p f := by
  cases hr : (s.run n).port with
  | none =>
    have hr' : ((s.onPort p f).run n).port = none := hr
    simp only [endPending, hr, hr', postFree_eq_posted, freeSlot_eq_runGone]
    rfl
  | some x =>
    have hr' : ((s.onPort p f).run n).port = some x := hr
    rw [endPending_of_port hr, endPending_of_port hr']
    by_cases hx : x = p
    · subst hx
      simp only [State.onPort, State.setPort_port_self, State.setPort_setPort, hf.2]
      exact State.setPort_setPort (runGone (abortPosted s n) n) x _ _
    · rw [State.onPort_port_of_ne hx]
      simp only [State.onPort]
      rw [State.setPort_port_of_ne _ (Ne.symm hx), State.setPort_comm _ hx]
      rfl

theorem foldl_endPending_onPort {f : PortRec → PortRec} (hf : SparesQueues f) (p : Port)
    (l : List Slot) (s : State) :
    l.foldl (fun st n => endPending n st) (s.onPort p f) =
      (l.foldl (fun st n => endPending n st) s).onPort p f := by
  induction l generalizing s with
  | nil => rfl
  | cons n l ih => rw [List.foldl_cons, endPending_onPort hf, ih, List.foldl_cons]

theorem drainQueues_onPort {f : PortRec → PortRec} (hf : SparesQueues f) (p : Port) (s : State) :
    drainQueues p (s.onPort p f) = (drainQueues p s).onPort p f := by
  have hq (P : PortRec) : (f P).urgent = P.urgent ∧ (f P).normal = P.normal :=
    ⟨hf.1 P .urgent, hf.1 P .normal⟩
  simp only [drainQueues, State.onPort_port_self, (hq _).1, foldl_endPending_onPort hf, (hq _).2]

/-- The service of a port after PORT_RESET (05 R102): finishing the byte in progress, or OFF. -/
def PortRec.cutOff (finishing : Bool) (P : PortRec) : PortRec :=
  if finishing then { P with cut := .reset }
  else { P with state := .off, interval := none, cut := .none, frame := none }

/-- The settings of a port after PORT_RESET (04 R79, 05 R102). -/
def PortRec.cleared (P : PortRec) : PortRec :=
  { P with enable := false, starveCount := 0, urgent := [], normal := [] }

theorem PortRec.cutOff_sparesQueues (b : Bool) : SparesQueues (PortRec.cutOff b) := by
  refine ⟨fun P τ => ?_, fun P τ n => ?_⟩ <;> cases b <;> cases τ <;> rfl

theorem portAfterReset_eq (p : Port) (b : Bool) (s : State) :
    portAfterReset p b s = (s.onPort p (PortRec.cutOff b)).onPort p PortRec.cleared := by
  rw [State.onPort_onPort]
  cases b <;> rfl

/-- The port finishes a byte at PORT_RESET (05 R102). -/
def finishes (s : State) (p : Port) : Bool := (s.port p).state == .shifting && cutsByte s p

/-- PORT_RESET with the port's service changed before its queues drain. -/
theorem resetPortCmd_eq (p : Port) (s : State) :
    resetPortCmd p s =
      (drainQueues p ((resetAttached p s).onPort p (PortRec.cutOff (finishes s p)))).onPort p
        PortRec.cleared := by
  rw [resetPortCmd, portAfterReset_eq, drainQueues_onPort (PortRec.cutOff_sparesQueues _)]
  rfl

/-- The tier queue of a port drained from its head, where every run is in its place (03 R63). -/
theorem drain_changes {u : State} {p : Port} {τ : Tier} {l : List Slot} (h : RunsPlaced u)
    (hl : (u.port p).tierQueue τ = l) :
    Changes u (l.foldl (fun st n => endPending n st) u)
      ∧ ((l.foldl (fun st n => endPending n st) u).port p).tierQueue τ = []
      ∧ ∀ σ, σ ≠ τ → ((l.foldl (fun st n => endPending n st) u).port p).tierQueue σ =
          (u.port p).tierQueue σ := by
  induction l generalizing u with
  | nil => exact ⟨.refl u, hl, fun _ _ => rfl⟩
  | cons n l ih =>
    obtain ⟨hst, hport, htier⟩ := ((h.placed.seated n).queue p τ).1 (by rw [hl]; simp)
    have hq (σ : Tier) : ((endPending n u).port p).tierQueue σ =
        if σ = τ then ((u.port p).tierQueue σ).erase n else (u.port p).tierQueue σ := by
      rw [endPending_of_port hport, State.setPort_port_self, PortRec.without_tierQueue, htier]
    obtain ⟨hc, hempty, hother⟩ := ih (h.endPending hst) (by rw [hq, if_pos rfl, hl]; simp)
    refine ⟨Changes.trans (Move.dropped u n hst).events.changes hc, hempty, fun σ hσ => ?_⟩
    rw [List.foldl_cons, hother σ hσ, hq, if_neg hσ]

theorem drainQueues_changes {u : State} (h : RunsPlaced u) (p : Port) :
    Changes u (drainQueues p u)
      ∧ ((drainQueues p u).port p).urgent = [] ∧ ((drainQueues p u).port p).normal = [] := by
  obtain ⟨hc, hu, -⟩ := drain_changes (τ := .urgent) (p := p) h rfl
  obtain ⟨hc', hn, hother⟩ := drain_changes (τ := .normal) (p := p) (hc.runsPlaced h) rfl
  exact ⟨hc.trans hc', (hother .urgent (by simp)).trans hu, hn⟩

/-- The port left by its attached run, if any, at PORT_RESET. -/
theorem resetAttached_changes {s : State} (h : RunsPlaced s) (p : Port) :
    Changes s ((resetAttached p s).onPort p (PortRec.cutOff (finishes s p))) := by
  have hserve := h.serves p
  cases ha : (s.port p).attached with
  | none =>
    rw [servedState, ha, Option.map_none] at hserve
    refine Events.changes (Move.events ?_)
    have hself : { s.port p with attached := none } = s.port p := by rw [← ha]
    simp only [resetAttached, ha, State.onPort]
    by_cases hfin : finishes s p = true
    · have hst : (s.port p).state = .shifting := by simp_all [finishes]
      rw [hfin]
      simp only [PortRec.serves, hst, Bool.and_eq_true, Option.isSome_iff_exists] at hserve
      obtain ⟨⟨⟨⟨f, hf⟩, -⟩, -⟩, -⟩ := hserve
      refine Move.vacated s p _ ha ?_ (by simp [PortRec.cutOff, hst])
      have hv := PortRec.Vacates.cutAt (P := s.port p) .reset f (by simp) hst hf (by simp [ha])
      rw [← ha] at hv
      exact hv
    · rw [Bool.eq_false_iff.2 hfin]
      refine Move.vacated s p _ ha ?_ (by simp [PortRec.cutOff])
      have hv := PortRec.Vacates.cleared (P := s.port p) .off (.inl rfl)
      rw [← ha] at hv
      exact hv
  | some n =>
    simp only [resetAttached, ha, abortAttached, freeSlot_detach_postHeld, State.onPort,
      State.setPort_port_self, State.setPort_setPort]
    refine Events.changes (Move.events (Move.endedPosting _ ha ?_ ?_))
    · by_cases hfin : finishes s p = true
      · have hst : (s.port p).state = .shifting := by simp_all [finishes]
        have hcut : cutsByte s p = true := by simp_all [finishes]
        obtain ⟨f, hf⟩ : ∃ f, (s.port p).frame = some f :=
          Option.ne_none_iff_exists'.1 fun hf => by simp [cutsByte, ha, hf] at hcut
        simp only [cutsByte, ha, hf, byteInProgress_eq] at hcut
        rw [hfin]
        exact .cutAt .reset f (by simp) hst hf fun _ => hcut
      · rw [Bool.eq_false_iff.2 hfin]
        exact .cleared .off (.inl rfl)
    · rcases h.attached_state ha with ⟨hst, -⟩ | ⟨hst, -⟩ | ⟨hst, -⟩ <;>
        cases finishes s p <;> simp [PortRec.cutOff, hst]

/-- PORT_RESET is a chain of changes, where every run is in its place. -/
theorem resetPortCmd_changes {s : State} (h : RunsPlaced s) (p : Port) :
    Changes s (resetPortCmd p s) := by
  have hatt := resetAttached_changes h p
  obtain ⟨hc, hu, hn⟩ := drainQueues_changes (hatt.runsPlaced h) p
  rw [resetPortCmd_eq]
  refine (hatt.trans hc).trans (Setting.changes (.port _ p _ ?_))
  simp [PortRec.SameService, PortRec.cleared, hu, hn]

/-- A law that every move and every setting keeps where every run is in its place, and every reset, is kept
by every step from there. -/
theorem step_keeps_placed {I : State → Prop} {s t : State} (h : step s = .next t) (hp : RunsPlaced s)
    (hi : I s) (change : ∀ {s t}, Change s t → RunsPlaced s → I s → I t)
    (engine : ∀ s, I s → I (engineReset s)) (started : ∀ s, I (startedUp s)) : I t := by
  have chain {s t : State} (hc : Changes s t) (hp : RunsPlaced s) (hi : I s) : I t := by
    have : RunsPlaced t ∧ I t :=
      hc.keeps (I := fun s => RunsPlaced s ∧ I s)
        (fun hc hs => ⟨hc.runsPlaced hs.1, change hc hs.1 hs.2⟩) ⟨hp, hi⟩
    exact this.2
  cases step_outcomes h with
  | changes hc => exact chain hc hp hi
  | engineReset hc => exact engine _ (chain hc hp hi)
  | startedUp u => exact started u
  | portReset p hc =>
    exact chain (resetPortCmd_changes (hc.runsPlaced hp) p) (hc.runsPlaced hp) (chain hc hp hi)

/-- Settles O55: every change keeps every run in its place, and the resets empty the pool. -/
theorem stepKeepsRunsPlaced : Obligations.StepKeepsRunsPlaced := fun _ _ hp h =>
  step_keeps_placed h hp hp (fun hc _ hs => hc.runsPlaced hs) (fun s _ => engineReset_runsPlaced s)
    startedUp_runsPlaced

end Sys2Proof.Machine
end

section
/-! What a move does to the run pool and to the counts that go with it: one slot at most changes (03 3.4), its
source's live-run count with it (01 R11), and the reservations of the queues (06 R108-R110). -/

namespace Sys2Proof.Machine

/-- What a move makes of the run in slot `n`. -/
inductive RunStep (s : State) (n : Slot) : Run → Prop
  | same : RunStep s n (s.run n)
  | gone : RunStep s n freeRun
  | admitted (src : Source) (below : (s.trigger src).live ≠ (s.trigger src).limit.toNat)
      (free : (s.run n).state = .free)
      (valid : copyValid s (fetchCopy s.desc (s.trigger src).firstDesc) = true) :
    RunStep s n (admittedRun s src)
  | requeued (p p' : Port) (r : Run) (att : (s.port p).attached = some n)
      (run : r = { s.run n with
        state := .pending, desc := r.desc, copy := r.copy, steps := r.steps, retries := r.retries,
        port := some p', resv := none, capture := [] })
      (target : (copyValid s r.copy = true ∧ p' = targetPort s.targets (copyTarget r.copy)
          ∧ StepTaken s (s.run n) r)
        ∨ (r.copy = (s.run n).copy ∧ p' = p ∧ r.steps = (s.run n).steps)) : RunStep s n r
  | kept (p : Port) (r : Run) (att : (s.port p).attached = some n)
      (run : r = { s.run n with
        state := .active, desc := r.desc, copy := r.copy, steps := r.steps, retries := r.retries,
        resv := r.resv, capture := [] })
      (reserve : r.resv = if (s.queue (copyQueue r.copy)).policy = .lossless then
        some (copyQueue r.copy) else none)
      (valid : copyValid s r.copy = true) (target : targetPort s.targets (copyTarget r.copy) = p)
      (taken : StepTaken s (s.run n) r) : RunStep s n r
  | emptied (p : Port) (att : (s.port p).attached = some n) :
    RunStep s n { s.run n with capture := [] }
  | awaits (p : Port) (att : (s.port p).attached = some n) :
    RunStep s n { s.run n with state := .awaiting }
  | captured (p : Port) (b : Byte) (att : (s.port p).attached = some n)
      (more : (s.run n).capture.length < copyRxLen (s.run n).copy) :
    RunStep s n { s.run n with capture := (s.run n).capture ++ [b] }
  | marked (att : (s.run n).isAttached = true) : RunStep s n { s.run n with mark := true }
  | granted (p : Port) (τ : Tier) (queued : n ∈ (s.port p).tierQueue τ) :
    RunStep s n
      { s.run n with
        state := .active
        resv := if (s.queue (copyQueue (s.run n).copy)).policy == .lossless then
          some (copyQueue (s.run n).copy) else (s.run n).resv
        capture := [] }

/-- The run `r` counts for source `src` (01 R11). -/
def livesAt (r : Run) (src : Source) : Bool := r.state != .free && r.source == src

/-- The run `r` holds a reservation in queue `q` (06 R110). -/
def holdsIn (r : Run) (q : QueueId) : Bool := r.resv == some q

/-- The move from `s` to `t` changes slot `n` at most; where every run is in its place, the counts change with
it, if they counted the run. -/
structure OneRun (s t : State) (n : Slot) : Prop where
  others : ∀ m, m ≠ n → t.run m = s.run m
  step : RunStep s n (t.run n)
  live : RunsPlaced s → ∀ src, (livesAt (s.run n) src = true → 0 < (s.trigger src).live) →
    (t.trigger src).live + (livesAt (s.run n) src).toNat =
      (s.trigger src).live + (livesAt (t.run n) src).toNat
  resv : RunsPlaced s → ∀ q, (holdsIn (s.run n) q = true → 0 < (s.queue q).resv) →
    (t.queue q).resv + (holdsIn (s.run n) q).toNat =
      (s.queue q).resv + (holdsIn (t.run n) q).toNat

theorem livesAt_freeRun (src : Source) : livesAt freeRun src = false := rfl

theorem livesAt_of_ne {r : Run} (h : r.state ≠ .free) (src : Source) :
    livesAt r src = (r.source == src) := by
  rw [livesAt, bne_iff_ne.2 h, Bool.true_and]

theorem holdsIn_freeRun (q : QueueId) : holdsIn freeRun q = false := rfl

/-- The pool and the counts untouched. -/
theorem OneRun.untouched {s t : State} (runs : ∀ n, t.run n = s.run n)
    (live : ∀ src, (t.trigger src).live = (s.trigger src).live)
    (resv : ∀ q, (t.queue q).resv = (s.queue q).resv) : OneRun s t 0 :=
  ⟨fun m _ => runs m, runs 0 ▸ .same, fun _ src _ => by rw [live, runs],
    fun _ q _ => by rw [resv, runs]⟩

/-- The run of slot `n` changed, in its place in the counts. -/
theorem OneRun.changed {s t : State} {n : Slot} (others : ∀ m, m ≠ n → t.run m = s.run m)
    (step : RunStep s n (t.run n)) (live : ∀ src, (t.trigger src).live = (s.trigger src).live)
    (lives : RunsPlaced s → ∀ src, livesAt (t.run n) src = livesAt (s.run n) src)
    (resv : ∀ q, (t.queue q).resv = (s.queue q).resv)
    (holds : ∀ q, holdsIn (t.run n) q = holdsIn (s.run n) q) : OneRun s t n :=
  ⟨others, step, fun hs src _ => by rw [live, lives hs], fun _ q _ => by rw [resv, holds]⟩

/-- The reservation of the run in slot `n` settled, and another taken. -/
theorem Settles.resv_eq {s : State} {held taken freed : Option QueueId} {qs : Vector Queue 8}
    (h : Settles s held taken freed qs) (q : QueueId)
    (counted : (held == some q) = true → 0 < (s.queue q).resv) :
    (qs[q]).resv + (held == some q).toNat = (s.queue q).resv + (taken == some q).toNat := by
  have one (x : Option QueueId) : (if x = some q then 1 else 0) = (x == some q).toNat := by
    by_cases hx : x = some q
    · rw [if_pos hx, beq_iff_eq.2 hx]; rfl
    · rw [if_neg hx, beq_eq_false_iff_ne.2 hx]; rfl
  rw [h.resv, one, one]
  cases hh : held == some q
  · rfl
  · have := counted hh
    simp only [Bool.toNat_true]
    omega

theorem runGone_live (s : State) (n : Slot) (src : Source)
    (live : (s.run n).state ≠ .free) (counted : livesAt (s.run n) src = true →
      0 < (s.trigger src).live) :
    ((runGone s n).trigger src).live + (livesAt (s.run n) src).toNat = (s.trigger src).live := by
  have hg : ((runGone s n).trigger src).live =
      if src = (s.run n).source then (s.trigger src).live - 1 else (s.trigger src).live := by
    simp only [runGone, State.setRun_trigger, State.setTrigger_trigger]
    split
    · next e => rw [e]
    · rfl
  rw [hg]
  by_cases hs : src = (s.run n).source
  · subst hs
    have hl : livesAt (s.run n) (s.run n).source = true := by simp [livesAt, live]
    have := counted hl
    rw [if_pos rfl, hl, Bool.toNat_true]
    omega
  · have hl : livesAt (s.run n) src = false := by simp [livesAt, Ne.symm hs]
    rw [if_neg hs, hl, Bool.toNat_false, Nat.add_zero]

theorem endPending_run (n : Slot) (s : State) (m : Slot) :
    (endPending n s).run m = if m = n then freeRun else s.run m := by
  simp only [endPending, postFree_eq_posted, freeSlot_eq_runGone, runGone_run]
  split
  · rfl
  · cases (s.run n).port with
    | none => rfl
    | some p => simp only [leaveQueue_eq]; rfl

/-- A move changes one run at most. -/
theorem Move.oneRun {led : Port → Bool} {s t : State} (h : Move led s t) :
    ∃ n, OneRun s t n := by
  cases h with
  | missed src cause =>
    refine ⟨0, .untouched (fun _ => rfl) (fun x => ?_) fun _ => rfl⟩
    by_cases hx : x = src
    · subst hx; simp [Machine.missed]
    · simp [Machine.missed, State.setTrigger_trigger, hx]
  | vacated p P att port idle => exact ⟨0, .untouched (fun _ => rfl) (fun _ => rfl) fun _ => rfl⟩
  | switched p st dest resting idle =>
    exact ⟨0, .untouched (fun _ => rfl) (fun _ => rfl) fun _ => rfl⟩
  | sent p n f b att frame more => exact ⟨0, .untouched (fun _ => rfl) (fun _ => rfl) fun _ => rfl⟩
  | counted ls ts k timers => exact ⟨0, .untouched (fun _ => rfl) (fun _ => rfl) fun _ => rfl⟩
  | admitted src n below free valid leads =>
    have hfree (hs : RunsPlaced s) := (hs.placed.seated n).free free
    refine ⟨n, fun m hm => ?_, ?_, fun hs x _ => ?_, fun hs q _ => ?_⟩
    · simp [queuedRun, oneMore, State.setRun_run, hm]
    · simpa [queuedRun] using RunStep.admitted src below free valid
    · have : livesAt (admittedRun s src) x = (src == x) := by simp [livesAt, admittedRun]
      simp only [queuedRun, oneMore, State.setPort_trigger, State.setRun_trigger,
        State.setTrigger_trigger, State.setPort_run, State.setRun_run_self, this, hfree hs,
        livesAt_freeRun]
      by_cases hx : x = src
      · subst hx; simp
      · simp [hx, Ne.symm hx]
    · have : holdsIn (admittedRun s src) q = false := by simp [holdsIn, admittedRun]
      simp [queuedRun, oneMore, this, hfree hs, holdsIn_freeRun]
  | rejected n q rec free =>
    have hfree (hs : RunsPlaced s) := (hs.placed.seated n).free free
    refine ⟨n, fun m hm => ?_, ?_, fun hs x _ => ?_, fun hs x _ => ?_⟩
    · simp [State.setRun_run, hm]; rfl
    · simpa using RunStep.gone
    · simp [hfree hs]; rfl
    · have := (posted_settles s q rec false (by simp)).resv x
      simp only [Bool.false_eq_true, if_false, reduceCtorEq, Nat.sub_zero, Nat.add_zero] at this
      simp only [State.setRun_queue, hfree hs, holdsIn_freeRun, State.setRun_run_self]
      exact congrArg (· + 0) this
  | ended p n P freed qs hp att queues port idle ret =>
    refine ⟨n, fun m hm => ?_, ?_, fun hs x hc => ?_, fun _ q hc => ?_⟩
    · simp [runGone_run, hm]
    · simpa [runGone_run] using RunStep.gone
    · have := runGone_live (s.results qs hp) n x (hs.ne_pending att).2 hc
      simp only [State.setPort_trigger, State.setPort_run, runGone_run, if_true, livesAt_freeRun]
      exact this
    · have := queues.resv_eq q hc
      simp only [State.setPort_run, runGone_run, if_true, holdsIn_freeRun, runGone_queue,
        State.setPort_queue, State.results_queue]
      exact this
  | requeued p p' n r P freed qs hp att unmarked queues run target port leads idle ret =>
    have hsrc : r.source = (s.run n).source := by rw [run]
    have hst : r.state = .pending := by rw [run]
    have hresv : r.resv = none := by rw [run]
    refine ⟨n, fun m hm => ?_, ?_, fun hs x _ => ?_, fun _ q hc => ?_⟩
    · simp [queuedRun, State.setRun_run, hm]
    · simpa [queuedRun] using RunStep.requeued p p' r att run target
    · have hne : r.state ≠ .free := by simp [hst]
      simp [queuedRun, livesAt_of_ne hne, livesAt_of_ne (hs.ne_pending att).2, hsrc]
    · have := queues.resv_eq q hc
      simp only [queuedRun, State.setPort_run, State.setRun_run_self, State.setPort_queue,
        State.setRun_queue, State.results_queue, holdsIn, hresv]
      exact this
  | kept p n r P freed qs hp att unmarked queues run reserve valid target taken port ret =>
    have hsrc : r.source = (s.run n).source := by rw [run]
    have hst : r.state = .active := by rw [run]
    refine ⟨n, fun m hm => ?_, ?_, fun hs x _ => ?_, fun _ q hc => ?_⟩
    · simp [State.setRun_run, hm]
    · simpa using RunStep.kept p r att run reserve valid target taken
    · have hne : r.state ≠ .free := by simp [hst]
      simp [livesAt_of_ne hne, livesAt_of_ne (hs.ne_pending att).2, hsrc]
    · simpa [holdsIn] using queues.resv_eq q hc
  | framed p n att gap =>
    refine ⟨n, .changed (fun m hm => ?_) ?_ (fun _ => rfl) (fun hs _ => ?_) (fun _ => rfl) fun _ => ?_⟩
    · simp [State.setRun_run, hm]
    · simpa using RunStep.emptied p att
    · simp [livesAt]
    · simp [holdsIn]
  | awaits p n att shifting =>
    refine ⟨n, .changed (fun m hm => ?_) ?_ (fun _ => rfl) (fun hs _ => ?_) (fun _ => rfl) fun _ => ?_⟩
    · simp [awaiting, State.setRun_run, hm]
    · simpa [awaiting] using RunStep.awaits p att
    · rw [livesAt_of_ne (hs.ne_pending att).2, livesAt_of_ne (by simp [awaiting])]
      simp [awaiting]
    · simp [awaiting, holdsIn]
  | received p n f b att frame more =>
    refine ⟨n, .changed (fun m hm => ?_) ?_ (fun _ => rfl) (fun hs _ => ?_) (fun _ => rfl) fun _ => ?_⟩
    · simp [State.setRun_run, hm]
    · simpa using RunStep.captured p b att more
    · simp [livesAt]
    · simp [holdsIn]
  | dropped n pending =>
    have hrun := endPending_run n s
    refine ⟨n, fun m hm => ?_, ?_, fun hs x hc => ?_, fun hs q _ => ?_⟩
    · rw [hrun, if_neg hm]
    · rw [hrun, if_pos rfl]; exact .gone
    · obtain ⟨p, hp, hq⟩ := hs.placed.pending_seat pending
      rw [endPending_of_port hp]
      have := runGone_live (abortPosted s n) n x (by simp [pending]) hc
      simp only [State.setPort_trigger, State.setPort_run, runGone_run, if_true, livesAt_freeRun]
      exact this
    · obtain ⟨p, hp, hq⟩ := hs.placed.pending_seat pending
      have hresv := ((hs.placed.seated n).pending pending).1
      rw [endPending_of_port hp]
      have := (posted_settles s (copyQueue (s.run n).copy) (abortedRecord s n) false (by simp)).resv q
      simp only [Bool.false_eq_true, if_false, reduceCtorEq, Nat.sub_zero, Nat.add_zero] at this
      have hh : holdsIn (s.run n) q = false := by simp [holdsIn, hresv]
      simp only [State.setPort_run, runGone_run, if_true, holdsIn_freeRun, runGone_queue,
        State.setPort_queue, hh]
      exact congrArg (· + 0) this
  | marked n att =>
    refine ⟨n, .changed (fun m hm => ?_) ?_ (fun _ => rfl) (fun hs _ => ?_) (fun _ => rfl) fun _ => ?_⟩
    · simp [State.setRun_run, hm]
    · simpa using RunStep.marked att
    · simp [livesAt]
    · simp [holdsIn]
  | granted p τ n c idle queued elig =>
    have hrun : (Machine.granted s p τ n c).run n = _ := State.setRun_run_self s n _
    refine ⟨n, fun m hm => granted_run_of_ne p τ c hm, ?_, fun hs x _ => ?_, fun hs q _ => ?_⟩
    · rw [hrun]; exact RunStep.granted p τ queued
    · have hpend := ((hs.placed.seated n).queue p τ).1 queued
      rw [hrun]
      have : livesAt { s.run n with
          state := .active
          resv := if (s.queue (copyQueue (s.run n).copy)).policy == .lossless then
            some (copyQueue (s.run n).copy) else (s.run n).resv
          capture := [] } x = livesAt (s.run n) x := by
        rw [livesAt_of_ne (by simp), livesAt_of_ne (by simp [hpend.1])]
      rw [this]
      rfl
    · have hpend := ((hs.placed.seated n).queue p τ).1 queued
      have hresv := ((hs.placed.seated n).pending hpend.1).1
      rw [hrun, granted_queue]
      simp only [holdsIn, hresv]
      by_cases hl : (s.queue (copyQueue (s.run n).copy)).policy = .lossless
      · by_cases hq : q = copyQueue (s.run n).copy
        · subst hq; simp [hl]
        · simp [hl, hq, Ne.symm hq]
      · by_cases hq : q = copyQueue (s.run n).copy
        · subst hq; simp [hl]
        · simp [hl, hq]

end Sys2Proof.Machine
end

section
/-! What no event of the engine changes: the configuration (04 R78, 06 R126, 08 8.4), and all of the part but
its lines, triggers, runs, ports, queues and timers. -/

namespace Sys2Proof.Machine

/-- Trigger map entry `e'` is `e` but for counts and latches (01 R11-R14). -/
def TrigEntry.SameSettings (e e' : TrigEntry) : Prop :=
  e' = { e with
    missCount := e'.missCount, lastMiss := e'.lastMiss, live := e'.live, missLatch := e'.missLatch }

/-- Port records alike in their settings (04 4.6), but for the enable. -/
def PortRec.SameSettings (P P' : PortRec) : Prop :=
  P'.haltOnError = P.haltOnError ∧ P'.haltNotify = P.haltNotify ∧ P'.group = P.group
    ∧ P'.starveLimit = P.starveLimit

/-- What the engine keeps: the configuration, the ports' enables with it, and every item outside the
triggers, runs, ports, queues and timers. -/
structure EngineKeeps (s t : State) : Prop where
  frame : t = { s with
    lines := t.lines, trig := t.trig, runs := t.runs, ports := t.ports, queues := t.queues,
    headPtr := t.headPtr, timers := t.timers, raceCount := t.raceCount }
  trig : ∀ n, (s.trigger n).SameSettings (t.trigger n)
  queue : ∀ q, (s.queue q).SameConfig (t.queue q)
  port : ∀ p, (s.port p).SameSettings (t.port p) ∧ (t.port p).enable = (s.port p).enable
  timer : ∀ k, (t.timer k).reload = (s.timer k).reload ∧ (t.timer k).mode = (s.timer k).mode

theorem PortRec.SameSettings.refl (P : PortRec) : P.SameSettings P := ⟨rfl, rfl, rfl, rfl⟩

theorem TrigEntry.SameSettings.refl (e : TrigEntry) : e.SameSettings e := rfl

theorem TrigEntry.SameSettings.trans {e e' e'' : TrigEntry} (h : e.SameSettings e')
    (h' : e'.SameSettings e'') : e.SameSettings e'' := by
  unfold TrigEntry.SameSettings at *
  rw [h', h]

theorem EngineKeeps.refl (s : State) : EngineKeeps s s :=
  ⟨rfl, fun _ => .refl _, fun _ => .refl _, fun _ => ⟨.refl _, rfl⟩, fun _ => ⟨rfl, rfl⟩⟩

theorem EngineKeeps.trans {s t u : State} (h : EngineKeeps s t) (h' : EngineKeeps t u) :
    EngineKeeps s u := by
  refine ⟨?_, fun n => (h.trig n).trans (h'.trig n), fun q => (h.queue q).trans (h'.queue q),
    fun p => ?_, fun k => ?_⟩
  · rw [h'.frame, h.frame]
  · obtain ⟨⟨a, b, c, d⟩, e⟩ := h.port p
    obtain ⟨⟨a', b', c', d'⟩, e'⟩ := h'.port p
    exact ⟨⟨a'.trans a, b'.trans b, c'.trans c, d'.trans d⟩, e'.trans e⟩
  · exact ⟨(h'.timer k).1.trans (h.timer k).1, (h'.timer k).2.trans (h.timer k).2⟩

theorem EngineKeeps.sameTables {s t : State} (h : EngineKeeps s t) : SameTables s t := by
  refine ⟨?_, ?_, ?_, ?_, h.trig, h.queue, fun p => (h.port p).1, h.timer⟩ <;> rw [h.frame]

/-- One port replaced by one with the same settings. -/
theorem EngineKeeps.setPort {s t : State} (h : EngineKeeps s t) {p : Port} {P : PortRec}
    (hs : (t.port p).SameSettings P) (he : P.enable = (t.port p).enable) :
    EngineKeeps s (t.setPort p P) := by
  refine h.trans ⟨rfl, fun _ => .refl _, fun _ => .refl _, fun x => ?_, fun _ => ⟨rfl, rfl⟩⟩
  rw [State.setPort_port]
  split
  · next e => exact e ▸ ⟨hs, he⟩
  · exact ⟨.refl _, rfl⟩

theorem EngineKeeps.setRun {s t : State} (h : EngineKeeps s t) (n : Slot) (r : Run) :
    EngineKeeps s (t.setRun n r) :=
  h.trans ⟨rfl, fun _ => .refl _, fun _ => .refl _, fun _ => ⟨.refl _, rfl⟩, fun _ => ⟨rfl, rfl⟩⟩

theorem EngineKeeps.setTrigger {s t : State} (h : EngineKeeps s t) {n : Source} {e : TrigEntry}
    (he : (t.trigger n).SameSettings e) : EngineKeeps s (t.setTrigger n e) := by
  refine h.trans ⟨rfl, fun x => ?_, fun _ => .refl _, fun _ => ⟨.refl _, rfl⟩, fun _ => ⟨rfl, rfl⟩⟩
  rw [State.setTrigger_trigger]
  split
  · next hx => exact hx ▸ he
  · exact .refl _

theorem EngineKeeps.results {s : State} {qs : Vector Queue 8} (hp : Nat)
    (hq : ∀ q : QueueId, (s.queue q).SameConfig qs[q]) : EngineKeeps s (s.results qs hp) :=
  ⟨rfl, fun _ => .refl _, hq, fun _ => ⟨.refl _, rfl⟩, fun _ => ⟨rfl, rfl⟩⟩

theorem EngineKeeps.posted (s : State) (q : QueueId) (rec : Record) :
    EngineKeeps s (posted s q rec false) :=
  .results (hp := (Machine.posted s q rec false).headPtr) (posted_settles s q rec false (by simp)).config

theorem EngineKeeps.runGone {s t : State} (h : EngineKeeps s t) (n : Slot) :
    EngineKeeps s (runGone t n) := by
  refine EngineKeeps.setRun (EngineKeeps.setTrigger h ?_) n freeRun
  rfl

theorem PortRec.Vacates.sameSettings {P P' : PortRec} (h : P.Vacates P') :
    P.SameSettings P' ∧ P'.enable = P.enable := by
  cases h <;> exact ⟨.refl _, rfl⟩

theorem PortRec.tailed_sameSettings (P : PortRec) (τ : Tier) (n : Slot) :
    P.SameSettings (P.tailed τ n) ∧ (P.tailed τ n).enable = P.enable := by
  cases τ <;> exact ⟨.refl _, rfl⟩

theorem PortRec.without_sameSettings (P : PortRec) (τ : Tier) (n : Slot) :
    P.SameSettings (P.without τ n) ∧ (P.without τ n).enable = P.enable := by
  cases τ <;> exact ⟨.refl _, rfl⟩

theorem EngineKeeps.queuedRun {s t : State} (h : EngineKeeps s t) (p : Port) (n : Slot) (r : Run) :
    EngineKeeps s (queuedRun t p n r) :=
  (h.setRun n r).setPort (PortRec.tailed_sameSettings _ _ _).1 (PortRec.tailed_sameSettings _ _ _).2

theorem EngineKeeps.endPending (s : State) (n : Slot) : EngineKeeps s (endPending n s) := by
  have hp := EngineKeeps.posted s (copyQueue (s.run n).copy) (abortedRecord s n)
  cases hr : (s.run n).port with
  | none =>
    simp only [Machine.endPending, hr, postFree_eq_posted, freeSlot_eq_runGone]
    exact hp.runGone n
  | some p =>
    rw [endPending_of_port hr]
    exact (hp.runGone n).setPort (PortRec.without_sameSettings _ _ _).1
      (PortRec.without_sameSettings _ _ _).2

theorem granted_engineKeeps (s : State) (p : Port) (τ : Tier) (n : Slot) (c : Bool) :
    EngineKeeps s (granted s p τ n c) := by
  refine ⟨granted_eq s p τ n c, fun _ => .refl _, fun q => ?_, fun x => ?_, fun _ => ⟨rfl, rfl⟩⟩
  · rw [granted_queue]
    split <;> exact .refl _
  · by_cases hx : x = p
    · subst hx
      rw [granted_port]
      exact PortRec.without_sameSettings (s.port x) τ n
    · rw [granted_port_of_ne τ n c hx]
      exact ⟨.refl _, rfl⟩

/-- No event of the engine changes the configuration. -/
theorem Move.keeps {led : Port → Bool} {s t : State} (h : Move led s t) : EngineKeeps s t := by
  cases h with
  | missed src cause =>
    refine EngineKeeps.setTrigger (.refl s) ?_
    rfl
  | admitted src n below free valid leads =>
    refine EngineKeeps.queuedRun (EngineKeeps.setTrigger (.refl s) ?_) _ n _
    rfl
  | rejected n q rec free => exact (EngineKeeps.posted s q rec).setRun n freeRun
  | ended p n P freed qs hp att queues port idle ret =>
    exact ((EngineKeeps.results hp queues.config).runGone n).setPort port.sameSettings.1
      port.sameSettings.2
  | requeued p p' n r P freed qs hp att unmarked queues run target port leads idle ret =>
    exact ((EngineKeeps.results hp queues.config).queuedRun p' n r).setPort port.sameSettings.1
      port.sameSettings.2
  | kept p n r P freed qs hp att unmarked queues run reserve valid target taken port ret =>
    have hq := (EngineKeeps.results hp queues.config).setRun n r
    rcases port with ⟨g, rfl, -⟩ | rfl
    · exact hq.setPort (.refl _) rfl
    · exact hq.setPort (.refl _) rfl
  | framed p n att gap => exact ((EngineKeeps.refl s).setRun n _).setPort (.refl _) rfl
  | awaits p n att shifting => exact ((EngineKeeps.refl s).setRun n _).setPort (.refl _) rfl
  | vacated p P att port idle =>
    exact (EngineKeeps.refl s).setPort port.sameSettings.1 port.sameSettings.2
  | switched p st dest resting idle => exact (EngineKeeps.refl s).setPort (.refl _) rfl
  | sent p n f b att frame more => exact (EngineKeeps.refl s).setPort (.refl _) rfl
  | received p n f b att frame more =>
    exact ((EngineKeeps.refl s).setRun n _).setPort (.refl _) rfl
  | dropped n pending => exact .endPending s n
  | marked n att => exact (EngineKeeps.refl s).setRun n _
  | granted p τ n c idle queued elig => exact granted_engineKeeps s p τ n c
  | counted ls ts k timers =>
    exact ⟨rfl, fun _ => .refl _, fun _ => .refl _, fun _ => ⟨.refl _, rfl⟩, timers⟩

theorem Decided.engineKeeps {led : Port → Bool} {m t : State} (h : Decided led m t) :
    EngineKeeps m t :=
  h.keeps (I := EngineKeeps m) (fun hm hi => hi.trans hm.keeps) (.refl m)

theorem Events.keeps {s t : State} (h : Events s t) : EngineKeeps s t := by
  induction h with
  | refl => exact .refl s
  | tail _ hlast ih =>
    obtain ⟨led, m, hm, hd⟩ := hlast
    exact ih.trans (hm.keeps.trans hd.engineKeeps)

end Sys2Proof.Machine
end

section
/-! The laws of the run pool that every step keeps: live runs stand on their targets' ports (02 R26), the
live-run counts and the step limits (01 R11, 03 R51), and the reservations (06 R108, R110). -/

namespace Sys2Proof.Machine

/-- A law that every move and every setting keeps where every run is in its place, and every reset, is kept
by every step from there. -/
theorem step_keeps_moves {I : State → Prop} {s t : State} (h : step s = .next t) (hp : RunsPlaced s)
    (hi : I s) (move : ∀ {led s t}, Move led s t → RunsPlaced s → I s → I t)
    (setting : ∀ {led s t}, Setting led s t → RunsPlaced s → I s → I t)
    (engine : ∀ s, I s → I (engineReset s)) (started : ∀ s, I (startedUp s)) : I t := by
  refine step_keeps_placed h hp hi (fun hc hs hi => ?_) engine started
  have : RunsPlaced _ ∧ I _ := hc.keeps (I := fun s => RunsPlaced s ∧ I s)
    (fun hm hs => ⟨hm.runsPlaced hs.1, move hm hs.1 hs.2⟩)
    (fun hm hs => ⟨hm.runsPlaced hs.1, setting hm hs.1 hs.2⟩) ⟨hs, hi⟩
  exact this.2

theorem Move.targets {led : Port → Bool} {s t : State} (h : Move led s t) : t.targets = s.targets := by
  rw [h.keeps.frame]

/-- No setting changes a run. -/
theorem Setting.run {led : Port → Bool} {s t : State} (h : Setting led s t) (n : Slot) :
    t.run n = s.run n := by
  cases h with
  | outside t same => exact same.run n
  | passes t k same => exact same.run n
  | ticks t same => exact same.run n
  | target | entry | queue | quota | port => rfl

-- Runs on their targets' ports

/-- Run `r`, if live, is on the port of its copy's target in the target table `m`, and that is enabled. -/
def OnTarget (m : Mem) (r : Run) : Prop :=
  r.state ≠ .free →
    r.port = some (targetPort m (copyTarget r.copy)) ∧ targetEnable m (copyTarget r.copy) = true

theorem onTargetsPort_iff (s : State) : OnTargetsPort s ↔ ∀ n, OnTarget s.targets (s.run n) := Iff.rfl

theorem copyValid_enable {s : State} {c : DescCopy} (h : copyValid s c = true) :
    targetEnable s.targets (copyTarget c) = true := by
  simp only [copyValid, Bool.and_eq_true] at h
  exact h.1.1.1.1.1.1.1.1

theorem OnTarget.freeRun (m : Mem) : OnTarget m freeRun := fun h => absurd rfl h

theorem RunStep.onTarget {s : State} {n : Slot} {r : Run} (h : RunStep s n r) (hs : RunsPlaced s)
    (ht : OnTarget s.targets (s.run n)) : OnTarget s.targets r := by
  have live {p : Port} (att : (s.port p).attached = some n) := ht (hs.ne_pending att).2
  cases h with
  | same => exact ht
  | gone => exact .freeRun _
  | admitted src below free valid => exact fun _ => ⟨rfl, copyValid_enable valid⟩
  | requeued p p' r att run target =>
    intro _
    have hport : r.port = some p' := by rw [run]
    rcases target with ⟨valid, rfl, -⟩ | ⟨hc, rfl, -⟩
    · exact ⟨hport, copyValid_enable valid⟩
    · rw [hport, hc, ← (hs.isAttached att).2]
      exact live att
  | kept p r att run reserve valid target taken =>
    intro _
    have hport : r.port = (s.run n).port := by rw [run]
    exact ⟨by rw [hport, (hs.isAttached att).2, target], copyValid_enable valid⟩
  | emptied p att => exact fun _ => live att
  | awaits p att => exact fun _ => live att
  | captured p b att more => exact fun _ => live att
  | marked att => exact fun _ => ht fun e => by simp [Run.isAttached, e] at att
  | granted p τ queued =>
    exact fun _ => ht (by rw [(((hs.placed.seated n).queue p τ).1 queued).1]; simp)

/-- No run stands on a port that is OFF with empty queues. -/
theorem RunsPlaced.port_ne_of_off {s : State} (hs : RunsPlaced s) {p : Port} {n : Slot}
    (off : (s.port p).offAndEmpty = true) (live : (s.run n).state ≠ .free) :
    (s.run n).port ≠ some p := by
  intro hport
  simp only [PortRec.offAndEmpty, Bool.and_eq_true, beq_iff_eq, List.isEmpty_iff] at off
  obtain ⟨⟨hoff, hu⟩, hn⟩ := off
  by_cases hp : (s.run n).state = .pending
  · have hm := ((hs.placed.seated n).queue p (s.run n).tier).2 ⟨hp, hport, rfl⟩
    cases ht : (s.run n).tier <;> simp [ht, PortRec.tierQueue, hu, hn] at hm
  · have ha : (s.run n).isAttached = true := by
      cases hst : (s.run n).state <;> simp_all [Run.isAttached]
    have hat := ((hs.placed.seated n).attached p).2 ⟨ha, hport⟩
    rcases hs.attached_state hat with ⟨h, -⟩ | ⟨h, -⟩ | ⟨h, -⟩ <;> simp [hoff] at h

/-- A write of one byte of an entry leaves the other entries. -/
theorem targetByte_memWrite_of_ne {m : Mem} {i : Nat} (v : Byte) (hm : Memory.wf m = true)
    (hi : i < 64) {u : TargetId} (hu : u ≠ Fin.ofNat 8 (i / 8)) {k : Nat} (hk : k < 8) :
    targetByte (memWrite m i v) u k = targetByte m u k := by
  refine memRead_memWrite_of_ne v hm fun e => hu (Fin.ext ?_)
  simp only [Fin.val_ofNat]
  omega

theorem Setting.onTargets {led : Port → Bool} {s t : State} (h : Setting led s t)
    (hs : RunsPlaced s) (hw : Memory.wf s.targets = true) (ht : OnTargetsPort s) :
    Memory.wf t.targets = true ∧ OnTargetsPort t := by
  have same (e : t.targets = s.targets) : Memory.wf t.targets = true ∧ OnTargetsPort t :=
    ⟨e ▸ hw, fun n hn => by rw [h.run] at hn ⊢; rw [e]; exact ht n hn⟩
  cases h with
  | outside t hc => exact same hc.targets
  | passes t k hc => exact same hc.targets
  | ticks t hc => exact same hc.targets
  | entry | queue | quota | port => exact same rfl
  | target i v bound off distinct =>
    refine ⟨memWrite_wf i v hw, fun n hn => ?_⟩
    obtain ⟨hport, hen⟩ := ht n hn
    have hne : copyTarget (s.run n).copy ≠ Fin.ofNat 8 (i / 8) := fun e =>
      hs.port_ne_of_off off hn (by rw [hport, e])
    have hb := targetByte_memWrite_of_ne v hw bound hne (k := 0) (by decide)
    change (s.run n).port = some (targetPort (memWrite s.targets i v) (copyTarget (s.run n).copy))
      ∧ targetEnable (memWrite s.targets i v) (copyTarget (s.run n).copy) = true
    simp only [targetPort, targetEnable, hb]
    exact ⟨hport, hen⟩

theorem onTargetsPort_of_empty {s : State} (h : ∀ n, s.run n = freeRun) : OnTargetsPort s :=
  fun n hn => absurd (by rw [h]; rfl) hn

/-- Settles O60: a move keeps the table and puts runs only on the port of a valid copy's target, and a target
entry is written only where its port is OFF and empty. -/
theorem stepKeepsRunsOnTheirTargetsPort : Obligations.StepKeepsRunsOnTheirTargetsPort := by
  intro s t hp hw ht h
  refine (step_keeps_moves (I := fun s => Memory.wf s.targets = true ∧ OnTargetsPort s) h hp
    ⟨hw, ht⟩ (fun hm hs hi => ?_) (fun hm hs hi => hm.onTargets hs hi.1 hi.2)
    (fun s hi => ⟨hi.1, onTargetsPort_of_empty (engineReset_run s)⟩)
    (fun s => ⟨rfl, onTargetsPort_of_empty (startedUp_run s)⟩)).2
  obtain ⟨n, hn⟩ := hm.oneRun
  refine ⟨hm.targets ▸ hi.1, (onTargetsPort_iff _).2 fun m => ?_⟩
  rw [hm.targets]
  by_cases hmn : m = n
  · exact hmn ▸ hn.step.onTarget hs (hi.2 n)
  · exact hn.others m hmn ▸ hi.2 m

end Sys2Proof.Machine
end

section
/-! The counts over the run pool that every step keeps: live runs and completed steps (01 R11, 03 R51), and
reservations (06 R108, R110). -/

namespace Sys2Proof.Machine

/-- A count over the slots after a change of slot `n`. -/
theorem countP_allSlots {f g : Slot → Bool} (n : Slot) (h : ∀ m, m ≠ n → g m = f m) :
    allSlots.countP g + (f n).toNat = allSlots.countP f + (g n).toNat := by
  have hperm : allSlots.Perm (n :: allSlots.erase n) := List.perm_cons_erase (List.mem_finRange n)
  have hnot : ∀ m ∈ allSlots.erase n, m ≠ n := fun m hm =>
    ((List.nodup_finRange 32).mem_erase_iff.1 hm).1
  have hrest : (allSlots.erase n).countP g = (allSlots.erase n).countP f :=
    List.countP_congr fun m hm => by rw [h m (hnot m hm)]
  rw [hperm.countP_eq g, hperm.countP_eq f, List.countP_cons, List.countP_cons, hrest]
  cases f n <;> cases g n <;> simp

theorem countP_allSlots_pos {f : Slot → Bool} {n : Slot} (h : f n = true) :
    0 < allSlots.countP f := List.countP_pos_iff.2 ⟨n, List.mem_finRange n, h⟩

-- Live runs and steps

theorem liveCounted_iff (s : State) : LiveCounted s ↔
    ∀ src, (s.trigger src).live = allSlots.countP fun k => livesAt (s.run k) src := Iff.rfl

theorem Move.liveCounted {led : Port → Bool} {s t : State} (h : Move led s t) (hs : RunsPlaced s)
    (hl : LiveCounted s) : LiveCounted t := by
  obtain ⟨n, hn⟩ := h.oneRun
  rw [liveCounted_iff] at hl ⊢
  intro src
  have hc := countP_allSlots (f := fun k => livesAt (s.run k) src)
    (g := fun k => livesAt (t.run k) src) n fun m hm => by rw [hn.others m hm]
  have hlive := hn.live hs src fun hlv => hl src ▸ countP_allSlots_pos hlv
  have := hl src
  omega

/-- Only an admission makes a run live. -/
theorem RunStep.lives {s : State} {n : Slot} {r : Run} (h : RunStep s n r) (hs : RunsPlaced s)
    (src : Source) : (livesAt r src = true → livesAt (s.run n) src = true)
      ∨ (r = admittedRun s src ∧ (s.trigger src).live ≠ (s.trigger src).limit.toNat
        ∧ (s.run n).state = .free) := by
  have same {r : Run} (att : (s.run n).state ≠ .free) (hsrc : r.source = (s.run n).source)
      (hr : r.state ≠ .free) : livesAt r src = true → livesAt (s.run n) src = true := by
    rw [livesAt_of_ne att, livesAt_of_ne hr, hsrc]
    exact id
  have live {p : Port} (att : (s.port p).attached = some n) := (hs.ne_pending att).2
  cases h with
  | same => exact .inl id
  | gone => exact .inl fun h => by simp [livesAt_freeRun] at h
  | admitted src' below free valid =>
    by_cases e : src' = src
    · subst e; exact .inr ⟨rfl, below, free⟩
    · exact .inl fun h => by simp [livesAt, admittedRun, e] at h
  | requeued p p' r att run target =>
    exact .inl (same (live att) (by rw [run]) (by rw [run]; simp))
  | kept p r att run reserve valid target taken =>
    exact .inl (same (live att) (by rw [run]) (by rw [run]; simp))
  | emptied p att => exact .inl (same (live att) rfl (live att))
  | awaits p att => exact .inl (same (live att) rfl (by simp))
  | captured p b att more => exact .inl (same (live att) rfl (live att))
  | marked att =>
    have hne : (s.run n).state ≠ .free := fun e => by simp [Run.isAttached, e] at att
    exact .inl (same hne rfl hne)
  | granted p τ queued =>
    have hp := (((hs.placed.seated n).queue p τ).1 queued).1
    exact .inl (same (by simp [hp]) rfl (by simp))

theorem TrigEntry.SameSettings.limits {e e' : TrigEntry} (h : e.SameSettings e') :
    e'.limit = e.limit ∧ e'.stepLimit = e.stepLimit := by
  rw [h]
  exact ⟨rfl, rfl⟩

theorem Move.liveWithinLimit {led : Port → Bool} {s t : State} (h : Move led s t) (hs : RunsPlaced s)
    (hl : LiveCounted s) (hw : LiveWithinLimit s) : LiveWithinLimit t := by
  obtain ⟨n, hn⟩ := h.oneRun
  intro src
  rw [(h.keeps.trig src).limits.1]
  refine ⟨?_, (hw src).2⟩
  have hlive := hn.live hs src fun hlv => (liveCounted_iff s).1 hl src ▸ countP_allSlots_pos hlv
  have hb := (hw src).1
  rcases hn.step.lives hs src with hmono | ⟨-, below, -⟩
  · cases hx : livesAt (t.run n) src
    · rw [hx, Bool.toNat_false] at hlive
      omega
    · rw [hx, hmono hx] at hlive
      omega
  · have := Bool.toNat_le (livesAt (t.run n) src)
    omega

/-- The completed steps of run `r`, if live, stay below its source's step limit. -/
def StepsBelow (s : State) (r : Run) : Prop :=
  r.state ≠ .free → (s.trigger r.source).stepLimit ≠ 0 → r.steps < (s.trigger r.source).stepLimit

theorem StepTaken.below {s : State} {r r' : Run} (h : StepTaken s r r')
    (hsrc : r'.source = r.source) (hb : (s.trigger r.source).stepLimit ≠ 0 →
      r.steps < (s.trigger r.source).stepLimit) : StepsBelow s r' := by
  intro _ hlim
  obtain ⟨hsteps, hnot⟩ := h
  rw [hsrc] at hlim ⊢
  have hlt := hb hlim
  have hne : r'.steps ≠ (s.trigger r.source).stepLimit := fun e => hnot ⟨hlim, e.symm⟩
  rw [hsteps] at hne ⊢
  generalize (s.trigger r.source).stepLimit = k at *
  unfold satInc at *
  split at hne <;> split <;> bv_omega

theorem RunStep.stepsBelow {s : State} {n : Slot} {r : Run} (h : RunStep s n r) (hs : RunsPlaced s)
    (hb : StepsBelow s (s.run n)) : StepsBelow s r := by
  have live {p : Port} (att : (s.port p).attached = some n) := hb (hs.ne_pending att).2
  cases h with
  | same => exact hb
  | gone => exact fun h => absurd rfl h
  | admitted src below free valid =>
    intro _ hlim
    change (0 : Byte) < _
    have : ((s.trigger (admittedRun s src).source).stepLimit).toNat ≠ 0 := fun e =>
      hlim (BitVec.eq_of_toNat_eq e)
    bv_omega
  | requeued p p' r att run target =>
    have hsrc : r.source = (s.run n).source := by rw [run]
    rcases target with ⟨-, -, taken⟩ | ⟨-, -, hsteps⟩
    · exact taken.below hsrc (live att)
    · intro _
      rw [hsrc, hsteps]
      exact live att
  | kept p r att run reserve valid target taken =>
    exact taken.below (by rw [run]) (live att)
  | emptied p att => exact fun _ => live att
  | awaits p att => exact fun _ => live att
  | captured p b att more => exact fun _ => live att
  | marked att => exact fun _ => hb fun e => by simp [Run.isAttached, e] at att
  | granted p τ queued =>
    exact fun _ => hb (by rw [(((hs.placed.seated n).queue p τ).1 queued).1]; simp)

theorem Move.stepsBelowLimit {led : Port → Bool} {s t : State} (h : Move led s t) (hs : RunsPlaced s)
    (hb : StepsBelowLimit s) : StepsBelowLimit t := by
  obtain ⟨n, hn⟩ := h.oneRun
  intro m
  rw [(h.keeps.trig _).limits.2]
  by_cases hm : m = n
  · exact hm ▸ hn.step.stepsBelow hs (hb n)
  · rw [hn.others m hm]; exact hb m

/-- The three laws of the live runs. -/
def LiveRuns (s : State) : Prop := LiveCounted s ∧ LiveWithinLimit s ∧ StepsBelowLimit s

theorem LiveRuns.of_same {s t : State} (h : LiveRuns s) (runs : ∀ n, t.run n = s.run n)
    (trig : ∀ n, t.trigger n = s.trigger n) : LiveRuns t := by
  obtain ⟨hc, hw, hb⟩ := h
  refine ⟨fun src => ?_, fun src => trig src ▸ hw src, fun n => ?_⟩
  · simp only [trig, runs]
    exact hc src
  · rw [runs, trig]
    exact hb n

/-- A trigger map entry written keeps the laws: its limits change only while no run lives. -/
theorem LiveRuns.write {s : State} (h : LiveRuns s) {n : Source} {e : TrigEntry}
    (w : (s.trigger n).Writes e) : LiveRuns (s.setTrigger n e) := by
  obtain ⟨hc, hw, hb⟩ := h
  obtain ⟨hlive, hlimit, hstep⟩ := w
  refine ⟨fun src => ?_, fun src => ?_, fun m hm => ?_⟩
  · rw [State.setTrigger_trigger]
    split
    · next hx => subst hx; rw [hlive]; exact hc src
    · exact hc src
  · rw [State.setTrigger_trigger]
    split
    · next hx =>
      subst hx
      have := hw src
      rcases hlimit with hl | ⟨h0, hl⟩
      · rw [hlive, hl]; exact this
      · rw [hlive, h0]; exact ⟨Nat.zero_le _, hl⟩
    · exact hw src
  · rw [State.setTrigger_run] at hm ⊢
    rw [State.setTrigger_trigger]
    split
    · next hx =>
      have hlv : livesAt (s.run m) n = true := by rw [livesAt_of_ne hm, hx]; simp
      have hpos : 0 < (s.trigger n).live := (liveCounted_iff s).1 hc n ▸ countP_allSlots_pos hlv
      rcases hstep with hl | h0
      · rw [hl, ← hx]; exact hb m hm
      · omega
    · exact hb m hm

theorem LiveRuns.of_empty {s : State} (runs : ∀ n, s.run n = freeRun)
    (live : ∀ src, (s.trigger src).live = 0) (limit : ∀ src, (s.trigger src).limit.toNat ≤ 4) :
    LiveRuns s := by
  refine ⟨fun src => ?_, fun src => ⟨live src ▸ Nat.zero_le _, limit src⟩, fun n hn => ?_⟩
  · simp [live, runs, freeRun]
  · exact absurd (by rw [runs]; rfl) hn

theorem engineReset_trigger (s : State) (n : Source) :
    (engineReset s).trigger n = engineResetEntry (s.trigger n) := mapAll_getElem _ s.trig n

/-- Settles O57: a move changes one run, its source's count with it, and a trigger map entry's limits change
only while no run of it lives. -/
theorem stepKeepsLiveRunsBounded : Obligations.StepKeepsLiveRunsBounded := by
  intro s t hp hc hw hb h
  refine step_keeps_moves (I := LiveRuns) h hp ⟨hc, hw, hb⟩
    (fun hm hs hi => ⟨hm.liveCounted hs hi.1, hm.liveWithinLimit hs hi.1 hi.2.1,
      hm.stepsBelowLimit hs hi.2.2⟩) (fun hset hs hi => ?_)
    (fun s hi => .of_empty (engineReset_run s) (fun n => by rw [engineReset_trigger]; rfl)
      fun n => by rw [engineReset_trigger]; exact (hi.2.1 n).2)
    (fun s => .of_empty (startedUp_run s) (fun n => by simp [resetEntry])
      fun n => by simp [resetEntry])
  cases hset with
  | outside t hc => exact hi.of_same hc.run hc.trigger
  | passes t k hc => exact hi.of_same hc.run hc.trigger
  | ticks t hc => exact hi.of_same hc.run hc.trigger
  | entry n e w => exact hi.write w
  | target | queue | quota | port => exact hi.of_same (fun _ => rfl) fun _ => rfl

-- Reservations

theorem reservationsCounted_iff (s : State) : ReservationsCounted s ↔
    ∀ q, (s.queue q).resv = allSlots.countP fun n => holdsIn (s.run n) q := Iff.rfl

theorem Move.reservationsCounted {led : Port → Bool} {s t : State} (h : Move led s t)
    (hs : RunsPlaced s) (hr : ReservationsCounted s) : ReservationsCounted t := by
  obtain ⟨n, hn⟩ := h.oneRun
  rw [reservationsCounted_iff] at hr ⊢
  intro q
  have hc := countP_allSlots (f := fun k => holdsIn (s.run k) q)
    (g := fun k => holdsIn (t.run k) q) n fun m hm => by rw [hn.others m hm]
  have hresv := hn.resv hs q fun hh => hr q ▸ countP_allSlots_pos hh
  have := hr q
  omega

/-- Run `r`, if attached, holds a reservation exactly where its copy's queue is LOSSLESS. -/
def Reserves (s : State) (r : Run) : Prop :=
  r.isAttached = true → r.resv =
    if (s.queue (copyQueue r.copy)).policy = .lossless then some (copyQueue r.copy) else none

theorem RunStep.reserves {s : State} {n : Slot} {r : Run} (h : RunStep s n r) (hs : RunsPlaced s)
    (hr : Reserves s (s.run n)) : Reserves s r := by
  have live {p : Port} (att : (s.port p).attached = some n) := hr (hs.isAttached att).1
  cases h with
  | same => exact hr
  | gone => exact fun h => by simp [Run.isAttached, freeRun] at h
  | admitted src below free valid => exact fun h => by simp [Run.isAttached, admittedRun] at h
  | requeued p p' r att run target =>
    exact fun h => by rw [run] at h; simp [Run.isAttached] at h
  | kept p r att run reserve valid target taken => exact fun _ => reserve
  | emptied p att => exact fun _ => live att
  | awaits p att => exact fun _ => live att
  | captured p b att more => exact fun _ => live att
  | marked att => exact fun _ => hr att
  | granted p τ queued =>
    intro _
    have hpend := (((hs.placed.seated n).queue p τ).1 queued).1
    have hnone := ((hs.placed.seated n).pending hpend).1
    simp only [hnone, beq_iff_eq]

theorem Reserves.of_policy {s t : State} {r : Run} (h : Reserves s r)
    (policy : ∀ q, (t.queue q).policy = (s.queue q).policy) : Reserves t r := by
  unfold Reserves
  rw [policy]
  exact h

theorem Move.attachedReserve {led : Port → Bool} {s t : State} (h : Move led s t) (hs : RunsPlaced s)
    (hr : AttachedReserve s) : AttachedReserve t := by
  obtain ⟨n, hn⟩ := h.oneRun
  have policy (q : QueueId) : (t.queue q).policy = (s.queue q).policy := (h.keeps.queue q).2.1
  intro m
  by_cases hm : m = n
  · exact hm ▸ (hn.step.reserves hs (hr n)).of_policy policy
  · rw [hn.others m hm]
    exact Reserves.of_policy (hr m) policy

/-- The two laws of the reservations. -/
def Reservations (s : State) : Prop := ReservationsCounted s ∧ AttachedReserve s

theorem Reservations.of_queue {s t : State} (h : Reservations s) (runs : ∀ n, t.run n = s.run n)
    (resv : ∀ q, (t.queue q).resv = (s.queue q).resv)
    (reserves : ∀ n, Reserves s (s.run n) → Reserves t (s.run n)) : Reservations t := by
  obtain ⟨hc, ha⟩ := h
  refine ⟨fun q => ?_, fun n => ?_⟩
  · simp only [resv, runs]
    exact hc q
  · rw [runs]
    exact reserves n (ha n)

theorem Reservations.of_same {s t : State} (h : Reservations s) (runs : ∀ n, t.run n = s.run n)
    (queues : ∀ q, t.queue q = s.queue q) : Reservations t :=
  h.of_queue runs (fun q => by rw [queues]) fun n hn => hn.of_policy fun q => by rw [queues]

theorem Reservations.of_empty {s : State} (runs : ∀ n, s.run n = freeRun)
    (resv : ∀ q, (s.queue q).resv = 0) : Reservations s := by
  refine ⟨fun q => ?_, fun n hn => ?_⟩
  · simp [resv, runs, freeRun]
  · rw [runs] at hn
    simp [Run.isAttached, freeRun] at hn

theorem engineReset_queue (s : State) (q : QueueId) :
    (engineReset s).queue q = engineResetQueue (s.queue q) := mapAll_getElem _ s.queues q

/-- A policy written to a queue without reservations: LOSSLESS only where no attached run names it (06 R127). -/
theorem Reservations.quota {s : State} (h : Reservations s) {q : QueueId} {Q : Queue}
    (unreserved : (s.queue q).resv = 0)
    (config : Q = { s.queue q with quota := Q.quota, policy := Q.policy })
    (unnamed : (s.queue q).policy = .lossy → Q.policy = .lossless → attachedNames s q = false) :
    Reservations (s.setQueue q Q) := by
  have hresv : Q.resv = 0 := by rw [config]; exact unreserved
  refine h.of_queue (fun _ => rfl) (fun x => ?_) fun n hn => ?_
  · rw [State.setQueue_queue]
    split
    · next e => subst e; rw [hresv, unreserved]
    · rfl
  · intro hatt
    have hr := hn hatt
    rw [State.setQueue_queue]
    split
    · next e =>
      rw [e] at hr ⊢
      have hno : (s.run n).resv ≠ some q := fun hq => by
        have hpos : 0 < (s.queue q).resv :=
          (reservationsCounted_iff s).1 h.1 q ▸ countP_allSlots_pos (n := n) (by simp [holdsIn, hq])
        omega
      have hlossy : (s.queue q).policy = .lossy := by
        cases hp : (s.queue q).policy with
        | lossy => rfl
        | lossless => rw [hp, if_pos rfl] at hr; exact absurd hr hno
      cases hq : Q.policy with
      | lossy => simpa [hlossy] using hr
      | lossless =>
        have := unnamed hlossy hq
        simp only [attachedNames, List.any_eq_false, names, Bool.and_eq_true, not_and] at this
        exact absurd (by simp [e]) (this n (List.mem_finRange n) hatt)
    · exact hr

/-- Settles O58: a move changes one run, and the reservations of the queues with it; a queue's policy changes
only while it is empty and no attached run would need a reservation. -/
theorem stepKeepsReservations : Obligations.StepKeepsReservations := by
  intro s t hp hc ha h
  refine step_keeps_moves (I := Reservations) h hp ⟨hc, ha⟩
    (fun hm hs hi => ⟨hm.reservationsCounted hs hi.1, hm.attachedReserve hs hi.2⟩)
    (fun hset hs hi => ?_)
    (fun s hi => .of_empty (engineReset_run s) fun q => by rw [engineReset_queue]; rfl)
    (fun s => .of_empty (startedUp_run s) fun q => by simp [resetQueue])
  cases hset with
  | outside t hc => exact hi.of_same hc.run hc.queue
  | passes t k hc => exact hi.of_same hc.run hc.queue
  | ticks t hc => exact hi.of_same hc.run hc.queue
  | target | entry | port => exact hi.of_same (fun _ => rfl) fun _ => rfl
  | queue q Q quota policy resv threshold records =>
    refine hi.of_queue (fun _ => rfl) (fun x => ?_) fun n hn => hn.of_policy fun x => ?_
    · rw [State.setQueue_queue]
      split
      · next e => subst e; exact resv
      · rfl
    · rw [State.setQueue_queue]
      split
      · next e => subst e; exact policy
      · rfl
  | quota q Q empty unreserved config unnamed sum threshold leads =>
    exact hi.quota unreserved config unnamed

end Sys2Proof.Machine
end

section
/-! Every step keeps the frames coherent (05 R86, R91, R93, R101): a frame stands within its length, and a
port's frame and clock target are those of its run's copy. -/

namespace Sys2Proof.Machine

/-- Frame `f` stands within its length and its transmit bytes. -/
def Frame.Within (f : Frame) : Prop :=
  f.sent.length ≤ f.txLen ∧ f.clocks ≤ clocksAt f (releaseHalf f)

/-- Frame `f` is that of copy `c`. -/
def Frame.OfCopy (f : Frame) (c : DescCopy) : Prop :=
  f.target = copyTarget c ∧ f.txLen = copyTxLen c ∧ f.rxLen = copyRxLen c

/-- The law of the frames for one port. -/
structure FrameCoherent (s : State) (p : Port) : Prop where
  within : ∀ f, (s.port p).frame = some f → f.Within
  clk : ∀ f, (s.port p).frame = some f → (s.port p).clkIdle = modeIdleHigh f.mode
  cut : ∀ f, (s.port p).frame = some f → (s.port p).attached = none → insideByte f = true
  copy : ∀ f, (s.port p).frame = some f → ∀ n, (s.port p).attached = some n →
    f.OfCopy (s.run n).copy
  clock : ∀ n, (s.port p).attached = some n →
    ((s.port p).state = .shifting ∨ (s.port p).state = .await) →
      (s.port p).clockTarget = some (copyTarget (s.run n).copy)

theorem framesCoherent_iff (s : State) : FramesCoherent s ↔ ∀ p, FrameCoherent s p := by
  constructor
  · intro h p
    obtain ⟨hf, hc⟩ := h p
    exact ⟨fun f e => ⟨(hf f e).1, (hf f e).2.1⟩, fun f e => (hf f e).2.2.1,
      fun f e => (hf f e).2.2.2.1, fun f e => (hf f e).2.2.2.2, hc⟩
  · intro h p
    obtain ⟨hw, hk, hcut, hcopy, hc⟩ := h p
    exact ⟨fun f e => ⟨(hw f e).1, (hw f e).2, hk f e, hcut f e, hcopy f e⟩, hc⟩

-- Points of a frame

theorem clocksAt_mono (f : Frame) {a b : Nat} (h : a ≤ b) : clocksAt f a ≤ clocksAt f b :=
  Nat.mul_le_mul_right _ (Nat.add_le_add_left h _)

theorem launchHalf_le_release (f : Frame) {k : Nat} (h : k < f.txLen + f.rxLen) :
    launchHalf f.mode (8 * k) ≤ releaseHalf f := by
  unfold launchHalf releaseHalf
  cases f.mode <;> simp only <;> omega

theorem sampleHalf_le_release (f : Frame) {k : Nat} (h : k < f.txLen + f.rxLen) :
    sampleHalf f.mode f.delayed (8 * k + 7) ≤ releaseHalf f := by
  unfold sampleHalf launchHalf releaseHalf
  cases f.mode <;> simp only <;> split <;> omega

theorem byteEnd_le_release (f : Frame) {k : Nat} (h : k < f.txLen + f.rxLen) :
    16 * (k + 1) ≤ releaseHalf f := by
  unfold releaseHalf
  cases f.mode <;> simp only <;> omega

/-- A frame at one of its points stands within its length. -/
theorem Frame.Within.reached {f : Frame} (h : f.Within) {point : Nat} (hp : point ≤ releaseHalf f) :
    (f.reached point).Within := by
  refine ⟨h.1, ?_⟩
  change max f.clocks (f.clocksTo point) ≤ clocksAt f (releaseHalf f)
  rw [clocksTo_eq]
  exact max_le h.2 (clocksAt_mono f hp)

/-- The byte in progress lies within the frame. -/
theorem byte_lt_of_inside {f : Frame} (h : insideByte f = true) :
    halvesOf f / 16 < f.txLen + f.rxLen := by
  simp only [insideByte, Bool.and_eq_true, decide_eq_true_eq] at h
  have hb := h.2
  split at hb
  · omega
  · simp only [Bool.and_eq_true, decide_eq_true_eq] at hb
    exact hb.1

/-- A frame moved on within its byte still has its byte in progress (05 R101). -/
theorem insideByte_of_clocks {f : Frame} {c : Nat} (h : insideByte f = true) (hc : f.clocks ≤ c)
    (hb : c ≤ max f.clocks (clocksAt f (16 * (halvesOf f / 16 + 1)) - 1)) :
    insideByte { f with clocks := c } = true := by
  have hpos : 0 < 2 ^ f.divider.toNat := Nat.two_pow_pos _
  have hle : halvesOf f ≤ halvesOf { f with clocks := c } :=
    Nat.sub_le_sub_right (Nat.div_le_div_right hc) _
  have hsame : halvesOf { f with clocks := c } / 16 = halvesOf f / 16 := by
    rcases Nat.lt_or_ge f.clocks c with hlt | hge
    · have hlast : c < ((if f.leadIn then 1 else 0) + 16 * (halvesOf f / 16 + 1)) *
          2 ^ f.divider.toNat := by
        unfold clocksAt at hb
        omega
      have hdiv := (Nat.div_lt_iff_lt_mul hpos).2 hlast
      have hup : halvesOf { f with clocks := c } < 16 * (halvesOf f / 16 + 1) := by
        change c / 2 ^ f.divider.toNat - (if f.leadIn then 1 else 0) < _
        omega
      omega
    · have : c = f.clocks := by omega
      subst this
      rfl
  simp only [insideByte, Bool.and_eq_true, decide_eq_true_eq, hsame] at h ⊢
  refine ⟨le_trans h.1 hc, ?_⟩
  have hk := h.2
  split at hk
  · next hlt => rw [if_pos hlt]; exact hk
  · next hge =>
    rw [if_neg hge]
    simp only [Bool.and_eq_true, decide_eq_true_eq] at hk ⊢
    exact ⟨hk.1, le_trans hk.2 hle⟩

-- The law under moves and settings

/-- Port records alike in all that the law of the frames reads. -/
def PortRec.SameWire (P P' : PortRec) : Prop :=
  P'.frame = P.frame ∧ P'.attached = P.attached ∧ P'.state = P.state
    ∧ P'.clockTarget = P.clockTarget ∧ P'.clkIdle = P.clkIdle

theorem PortRec.SameWire.refl (P : PortRec) : P.SameWire P := ⟨rfl, rfl, rfl, rfl, rfl⟩

theorem FrameCoherent.congr {s t : State} {p : Port} (h : FrameCoherent s p)
    (port : (s.port p).SameWire (t.port p))
    (copy : ∀ n, (s.port p).attached = some n → (t.run n).copy = (s.run n).copy) :
    FrameCoherent t p := by
  obtain ⟨hf, ha, hst, hct, hck⟩ := port
  refine ⟨fun f e => h.within f (hf ▸ e), fun f e => hck ▸ h.clk f (hf ▸ e),
    fun f e e' => h.cut f (hf ▸ e) (ha ▸ e'), fun f e n e' => ?_, fun n e e' => ?_⟩
  · rw [ha] at e'
    rw [copy n e']
    exact h.copy f (hf ▸ e) n e'
  · rw [ha] at e
    rw [hct, copy n e]
    exact h.clock n e (hst ▸ e')

/-- One run and one port changed, the other ports' wires as they were. -/
theorem framesCoherent_of_others {s t : State} (h : ∀ x, FrameCoherent s x) (p : Port) (n : Slot)
    (runs : ∀ m, m ≠ n → (t.run m).copy = (s.run m).copy)
    (ports : ∀ x, x ≠ p → (s.port x).SameWire (t.port x))
    (away : ∀ x, x ≠ p → (s.port x).attached ≠ some n) (own : FrameCoherent t p) (x : Port) :
    FrameCoherent t x := by
  by_cases hx : x = p
  · exact hx ▸ own
  · exact (h x).congr (ports x hx) fun m hm =>
      runs m fun e => away x hx (by rw [← e]; exact hm)

/-- No port touched but in its queues, and no attached run's copy. -/
theorem framesCoherent_of_same {s t : State} (h : ∀ x, FrameCoherent s x)
    (copies : ∀ x m, (s.port x).attached = some m → (t.run m).copy = (s.run m).copy)
    (ports : ∀ x, (s.port x).SameWire (t.port x)) (x : Port) : FrameCoherent t x :=
  (h x).congr (ports x) (copies x)

/-- A port with neither a frame nor a run in a frame or a ready wait. -/
theorem FrameCoherent.of_none {s : State} {p : Port} (frame : (s.port p).frame = none)
    (rest : (s.port p).attached = none ∨ (s.port p).state = .gap) : FrameCoherent s p := by
  refine ⟨by simp [frame], by simp [frame], by simp [frame], by simp [frame], fun n e h => ?_⟩
  rcases rest with hr | hr <;> simp [hr] at e h

/-- A port in its gap has no frame. -/
theorem RunsPlaced.frame_of_gap {s : State} (h : RunsPlaced s) {p : Port}
    (gap : (s.port p).state = .gap) : (s.port p).frame = none := by
  have := h.serves p
  simp only [PortRec.serves, gap, Bool.and_eq_true, Option.isNone_iff_eq_none] at this
  exact this.1.1.1.1

/-- A port at rest has neither run nor frame. -/
theorem RunsPlaced.resting {s : State} (h : RunsPlaced s) {p : Port}
    (rest : (s.port p).state = .off ∨ (s.port p).state = .idle ∨ (s.port p).state = .halted) :
    (s.port p).attached = none ∧ (s.port p).frame = none := by
  have hserve := h.serves p
  rcases rest with hst | hst | hst <;>
    simp only [PortRec.serves, hst, Bool.and_eq_true, Option.isNone_iff_eq_none, servedState,
      Option.map_eq_none_iff] at hserve <;>
    exact ⟨hserve.1.1.1, hserve.1.1.2⟩

/-- A port left without a run holds no frame, or one cut inside its byte. -/
theorem FrameCoherent.vacated {s t : State} {p : Port} {P : PortRec} (h : FrameCoherent s p)
    (hs : RunsPlaced s) (port : (s.port p).Vacates P) (same : P.SameWire (t.port p)) :
    FrameCoherent t p := by
  obtain ⟨hf, ha, hst, hct, hck⟩ := same
  have hat : (t.port p).attached = none := ha.trans port.attached
  cases port with
  | cleared st hst => exact .of_none hf (.inl hat)
  | gap g hg => exact .of_none hf (.inl hat)
  | left st hst hg => exact .of_none (hf.trans (hs.frame_of_gap hg)) (.inl hat)
  | inGap hg => exact .of_none (hf.trans (hs.frame_of_gap hg)) (.inl hat)
  | cutAt c f hc hst hfr hb =>
    have only {f' : Frame} (e : (t.port p).frame = some f') : (s.port p).frame = some f' :=
      hf.symm.trans e
    refine ⟨fun f' e => h.within f' (only e), fun f' e => hck ▸ h.clk f' (only e), fun f' e _ => ?_,
      fun f' e n e' => by simp [hat] at e', fun n e' => by simp [hat] at e'⟩
    by_cases ha : (s.port p).attached = none
    · exact h.cut f' (only e) ha
    · exact Option.some.inj (hfr.symm.trans (only e)) ▸ hb ha

theorem PortRec.tailed_sameWire (P : PortRec) (τ : Tier) (n : Slot) : P.SameWire (P.tailed τ n) := by
  cases τ <;> exact .refl _

theorem PortRec.without_sameWire (P : PortRec) (τ : Tier) (n : Slot) : P.SameWire (P.without τ n) := by
  cases τ <;> exact .refl _

theorem queuedRun_port (s : State) (p : Port) (n : Slot) (r : Run) (x : Port) :
    (queuedRun s p n r).port x = if x = p then (s.port p).tailed r.tier n else s.port x :=
  State.setPort_port _ p _ x

theorem queuedRun_sameWire (s : State) (p : Port) (n : Slot) (r : Run) (x : Port) :
    (s.port x).SameWire ((queuedRun s p n r).port x) := by
  rw [queuedRun_port]
  split
  · next e => exact e ▸ PortRec.tailed_sameWire _ _ _
  · exact .refl _

/-- The port that a re-queued run leaves, its queues aside. -/
theorem vacates_of_queuedRun {s : State} {p p' : Port} {n : Slot} {r : Run} {P : PortRec}
    (h : ((queuedRun s p' n r).port p).Vacates P) :
    (s.port p).Vacates { P with urgent := (s.port p).urgent, normal := (s.port p).normal } := by
  have := h.withQueues (s.port p).urgent (s.port p).normal
  rw [queuedRun_port] at this
  split at this
  · next e => subst e; cases hr : r.tier <;> simpa [hr, PortRec.tailed] using this
  · exact this

/-- A port that starts a frame. -/
theorem FrameCoherent.frameStarted {t : State} {p : Port} {P : PortRec} {m : Mem} {n : Slot}
    {c : DescCopy} (port : t.port p = P.frameStarted m n c) (copy : (t.run n).copy = c) :
    FrameCoherent t p := by
  have hat : (t.port p).attached = some n := by rw [port]; rfl
  refine ⟨fun f e => ?_, fun f e => ?_, fun f _ e => by simp [hat] at e, fun f e k e' => ?_,
    fun k e _ => ?_⟩
  · rw [port] at e
    obtain rfl := Option.some.inj e
    exact ⟨Nat.zero_le _, Nat.zero_le _⟩
  · rw [port] at e ⊢
    obtain rfl := Option.some.inj e
    rfl
  · rw [port] at e
    obtain rfl := Option.some.inj e
    obtain rfl := Option.some.inj (hat.symm.trans e')
    rw [copy]
    exact ⟨rfl, rfl, rfl⟩
  · obtain rfl := Option.some.inj (hat.symm.trans e)
    rw [port, copy]
    rfl

/-- A port whose frame has come to another point of the same run. -/
theorem FrameCoherent.moved {s t : State} {p : Port} {n : Slot} {f f' : Frame}
    (h : FrameCoherent s p) (frame : (s.port p).frame = some f) (att : (s.port p).attached = some n)
    (port : t.port p = { s.port p with frame := some f' }) (copy : (t.run n).copy = (s.run n).copy)
    (within : f'.Within) (mode : f'.mode = f.mode) (target : f'.target = f.target)
    (tx : f'.txLen = f.txLen) (rx : f'.rxLen = f.rxLen) : FrameCoherent t p := by
  have hat : (t.port p).attached = some n := by rw [port]; exact att
  have only {g : Frame} (e : (t.port p).frame = some g) : g = f' := by
    rw [port] at e
    exact (Option.some.inj e).symm
  refine ⟨fun g e => only e ▸ within, fun g e => ?_, fun g _ e => by simp [hat] at e,
    fun g e k e' => ?_, fun k e e' => ?_⟩
  · rw [only e, mode, port]; exact h.clk f frame
  · obtain rfl := Option.some.inj (hat.symm.trans e')
    rw [only e, Frame.OfCopy, target, tx, rx, copy]
    exact h.copy f frame n att
  · obtain rfl := Option.some.inj (hat.symm.trans e)
    rw [port] at e' ⊢
    rw [copy]
    exact h.clock n att e'

/-- Every move keeps the frames coherent. -/
theorem Move.frames {led : Port → Bool} {s t : State} (h : Move led s t) (hs : RunsPlaced s)
    (hf : ∀ x, FrameCoherent s x) : ∀ x, FrameCoherent t x := by
  have away {p : Port} {n : Slot} (att : (s.port p).attached = some n) (x : Port) (hx : x ≠ p) :
      (s.port x).attached ≠ some n := (hs.placed.away_of_attached att hx).2
  cases h with
  | missed src cause => exact framesCoherent_of_same hf (fun _ _ _ => rfl) fun _ => .refl _
  | counted ls ts k timers => exact framesCoherent_of_same hf (fun _ _ _ => rfl) fun _ => .refl _
  | admitted src n below free valid leads =>
    refine framesCoherent_of_same hf (fun x m hm => ?_)
      (queuedRun_sameWire (oneMore s src) _ n (admittedRun s src))
    have hne : m ≠ n := fun e => (hs.placed.nowhere_of_free free).2 x (by rw [← e]; exact hm)
    simp [queuedRun, oneMore, State.setRun_run, hne]
  | rejected n q rec free =>
    refine framesCoherent_of_same hf (fun x m hm => ?_) fun _ => .refl _
    have hne : m ≠ n := fun e => (hs.placed.nowhere_of_free free).2 x (by rw [← e]; exact hm)
    rw [State.setRun_run_of_ne _ hne]
    rfl
  | ended p n P freed qs hp att queues port idle ret =>
    refine framesCoherent_of_others hf p n (fun m hm => ?_) (fun x hx => ?_) (away att)
      ((hf p).vacated hs port ?_)
    · simp [runGone_run, hm]
    · simp [State.setPort_port, hx, PortRec.SameWire]
    · simp [PortRec.SameWire]
  | requeued p p' n r P freed qs hp att unmarked queues run target port leads idle ret =>
    refine framesCoherent_of_others hf p n (fun m hm => ?_) (fun x hx => ?_) (away att)
      ((hf p).vacated hs (vacates_of_queuedRun (s := s.results qs hp) port) ?_)
    · simp [queuedRun, State.setRun_run, hm]
    · rw [State.setPort_port_of_ne _ hx]
      exact queuedRun_sameWire (s.results qs hp) p' n r x
    · simp [PortRec.SameWire]
  | kept p n r P freed qs hp att unmarked queues run reserve valid target taken port ret =>
    refine framesCoherent_of_others hf p n (fun m hm => ?_) (fun x hx => ?_) (away att) ?_
    · simp [State.setRun_run, hm]
    · simp [State.setPort_port, hx, PortRec.SameWire]
    · have hP' := State.setPort_port_self ((s.results qs hp).setRun n r) p P
      rcases port with ⟨g, hP, -⟩ | hP
      · refine .of_none ?_ (.inr ?_) <;> rw [hP', hP] <;> rfl
      · exact .frameStarted (hP'.trans hP) (by simp)
  | framed p n att gap =>
    refine framesCoherent_of_others hf p n (fun m hm => ?_) (fun x hx => ?_) (away att) ?_
    · simp [State.setRun_run, hm]
    · simp [State.setPort_port, hx, PortRec.SameWire]
    · exact .frameStarted (State.setPort_port_self _ p _) (by simp)
  | awaits p n att shifting =>
    refine framesCoherent_of_others hf p n (fun m hm => ?_) (fun x hx => ?_) (away att) ?_
    · simp [awaiting, State.setRun_run, hm]
    · simp [awaiting, State.setPort_port, hx, PortRec.SameWire]
    · have hp : (awaiting s p n).port p = _ := State.setPort_port_self _ p _
      refine ⟨by simp [hp], by simp [hp], by simp [hp], by simp [hp], fun m hm _ => ?_⟩
      rw [hp] at hm ⊢
      obtain rfl := Option.some.inj (att.symm.trans hm)
      simpa [awaiting] using (hf p).clock n att (.inl shifting)
  | vacated p P att port idle =>
    intro x
    by_cases hx : x = p
    · subst hx
      exact (hf x).vacated hs port (by simp [PortRec.SameWire])
    · exact (hf x).congr (by simp [State.setPort_port, hx, PortRec.SameWire]) fun _ _ => rfl
  | switched p st dest resting idle =>
    intro x
    by_cases hx : x = p
    · subst hx
      obtain ⟨hat, hfr⟩ := hs.resting resting
      exact .of_none (by rw [State.setPort_port_self]; exact hfr)
        (.inl (by rw [State.setPort_port_self]; exact hat))
    · exact (hf x).congr (by simp [State.setPort_port, hx, PortRec.SameWire]) fun _ _ => rfl
  | sent p n f b att frame more =>
    refine framesCoherent_of_others hf p n (fun _ _ => rfl) (fun x hx => ?_) (away att) ?_
    · simp [State.setPort_port, hx, PortRec.SameWire]
    · obtain ⟨-, htx, -⟩ := (hf p).copy f frame n att
      have hw := ((hf p).within f frame).reached (launchHalf_le_release f (k := f.sent.length)
        (by omega))
      refine (hf p).moved frame att (State.setPort_port_self _ p _) rfl ⟨?_, ?_⟩ rfl rfl rfl rfl
      · simp only [List.length_append, List.length_singleton, Frame.reached]
        omega
      · rw [launchPoint_eq]
        exact hw.2
  | received p n f b att frame more =>
    refine framesCoherent_of_others hf p n (fun m hm => ?_) (fun x hx => ?_) (away att) ?_
    · simp [State.setRun_run, hm]
    · simp [State.setPort_port, hx, PortRec.SameWire]
    · obtain ⟨-, -, hrx⟩ := (hf p).copy f frame n att
      refine (hf p).moved frame att (State.setPort_port_self _ p _) (by simp) ?_ rfl rfl rfl rfl
      rw [samplePoint_eq]
      exact ((hf p).within f frame).reached (sampleHalf_le_release f (by omega))
  | dropped n pending =>
    obtain ⟨p, hp, hq⟩ := hs.placed.pending_seat pending
    rw [endPending_of_port hp]
    refine framesCoherent_of_same hf (fun x m hm => ?_) fun x => ?_
    · have hne : m ≠ n := fun e => hs.placed.not_attached_of_queued hq x (by rw [← e]; exact hm)
      simp [runGone_run, hne]
    · rw [State.setPort_port]
      split
      · next e => exact e ▸ PortRec.without_sameWire _ _ _
      · exact .refl _
  | marked n att =>
    refine framesCoherent_of_same hf (fun x m hm => ?_) fun _ => .refl _
    rw [State.setRun_run]
    split
    · next e => rw [e]
    · rfl
  | granted p τ n c idle queued elig =>
    refine framesCoherent_of_others hf p n (fun m hm => by rw [granted_run_of_ne p τ c hm])
      (fun x hx => by rw [granted_port_of_ne τ n c hx]; exact .refl _)
      (fun x _ => hs.placed.not_attached_of_queued queued x) ?_
    exact .frameStarted (granted_port s p τ n c) (by rw [granted_run_self])

/-- A frame that moves on before its next event stands within its length (05 R86). -/
theorem nextPoint_le_release {s : State} {p : Port} {f : Frame} (h : FrameCoherent s p)
    (frame : (s.port p).frame = some f) : nextPoint s (s.port p) f ≤ releaseHalf f := by
  rw [nextPoint_eq, nextHalf]
  split
  · next hnone => exact byteEnd_le_release f (byte_lt_of_inside (h.cut f frame hnone))
  · simp only
    split
    · exact launchHalf_le_release f (by omega)
    · split
      · exact sampleHalf_le_release f (by omega)
      · exact le_rfl

/-- A port while part clocks pass keeps its frame coherent. -/
theorem FrameCoherent.passes {s t : State} {p : Port} (h : FrameCoherent s p) (k : Nat)
    (port : t.port p = passPort s k (s.port p)) (runs : ∀ n, t.run n = s.run n) :
    FrameCoherent t p := by
  rcases passPort_eq_self_or s k (s.port p) with e | ⟨f, c, hst, hf, hlo, hhi, e⟩
  · exact h.congr (by rw [port, e]; exact .refl _) fun n _ => by rw [runs]
  rw [e] at port
  have hnext := nextPoint_le_release h hf
  have hw := h.within f hf
  have within : ({ f with clocks := c } : Frame).Within := by
    refine ⟨hw.1, le_trans hhi (max_le hw.2 ?_)⟩
    rw [clocksTo_eq]
    exact le_trans (Nat.sub_le _ 1) (clocksAt_mono f hnext)
  cases hat : (s.port p).attached with
  | some n => exact h.moved hf hat port (by rw [runs]) within rfl rfl rfl rfl
  | none =>
    have hat' : (t.port p).attached = none := by rw [port]; exact hat
    have only {g : Frame} (eg : (t.port p).frame = some g) : g = { f with clocks := c } := by
      rw [port] at eg
      exact (Option.some.inj eg).symm
    refine ⟨fun g eg => only eg ▸ within, fun g eg => ?_, fun g eg _ => ?_,
      fun g eg n en => by simp [hat'] at en, fun n en => by simp [hat'] at en⟩
    · rw [only eg, port]; exact h.clk f hf
    · rw [only eg]
      refine insideByte_of_clocks (h.cut f hf hat) hlo ?_
      rwa [nextPoint_eq, nextHalf, hat, clocksTo_eq] at hhi

theorem tickPort_sameWire (P : PortRec) : P.SameWire (tickPort P) := by
  obtain ⟨i, h, -⟩ := tickPort_eq P
  rw [h]
  exact .refl _

/-- Every setting keeps the frames coherent. -/
theorem Setting.frames {led : Port → Bool} {s t : State} (h : Setting led s t)
    (hf : ∀ x, FrameCoherent s x) : ∀ x, FrameCoherent t x := by
  cases h with
  | outside t same =>
    exact framesCoherent_of_same hf (fun _ m _ => by rw [same.run]) fun x => by
      rw [same.port]; exact .refl _
  | target | entry | queue | quota =>
    exact framesCoherent_of_same hf (fun _ _ _ => rfl) fun _ => .refl _
  | port p P service =>
    refine framesCoherent_of_same hf (fun _ _ _ => rfl) fun x => ?_
    rw [State.setPort_port]
    split
    · next e => rw [e, service]; exact .refl _
    · exact .refl _
  | passes t k same => exact fun x => (hf x).passes k (same.port_mapAll x) same.run
  | ticks t same =>
    exact framesCoherent_of_same hf (fun _ m _ => by rw [same.run]; rfl) fun x => by
      rw [same.port_mapAll]; exact tickPort_sameWire _

/-- Settles O56: a move starts a frame from its run's copy or moves one on to a point of its own, and part
clocks take a frame no further than its next event. -/
theorem stepKeepsFramesCoherent : Obligations.StepKeepsFramesCoherent := by
  intro s t hp hf h
  rw [framesCoherent_iff] at hf ⊢
  exact step_keeps_moves (I := fun s => ∀ x, FrameCoherent s x) h hp hf
    (fun hm hs hi => hm.frames hs hi) (fun hm _ hi => hm.frames hi)
    (fun s _ x => .of_none (by rw [engineReset_port]; rfl) (.inl (by rw [engineReset_port]; rfl)))
    fun s x => .of_none (by simp [resetPort]) (.inl (by simp [resetPort]))

end Sys2Proof.Machine
end

section
/-! No step leaves a port IDLE with an eligible run in its queues (04 R69, R70): whatever a move or a setting
makes eligible, it leads the port to a decision. -/

namespace Sys2Proof.Machine

/-- No IDLE port but those that `led` names has an eligible run in its queues. -/
def IdleExcept (led : Port → Bool) (s : State) : Prop :=
  ∀ p, (s.port p).state = .idle → led p = false →
    ∀ τ n, n ∈ (s.port p).tierQueue τ → eligible s n = false

theorem mem_queues_iff (P : PortRec) (n : Slot) :
    n ∈ P.urgent ++ P.normal ↔ ∃ τ, n ∈ P.tierQueue τ := by
  rw [List.mem_append]
  constructor
  · rintro (h | h)
    · exact ⟨.urgent, h⟩
    · exact ⟨.normal, h⟩
  · rintro ⟨τ, h⟩
    cases τ
    · exact .inr h
    · exact .inl h

theorem idleHasNone_iff (s : State) :
    IdleHasNone s ↔ ∀ p, (s.port p).state = .idle →
      ∀ τ n, n ∈ (s.port p).tierQueue τ → eligible s n = false := by
  simp only [IdleHasNone, mem_queues_iff, forall_exists_index]
  exact ⟨fun h p hp τ n hn => h p hp n τ hn, fun h p hp n τ hn => h p hp τ n hn⟩

/-- A run queued on port `x` that names queue `q` makes the port wait on it (04 R69). -/
theorem waits_of_mem {s : State} {q : QueueId} {x : Port} {τ : Tier} {n : Slot}
    (h : n ∈ (s.port x).tierQueue τ) (hq : copyQueue (s.run n).copy = q) : waits s q x = true := by
  have hn : names s q n = true := by simp [names, hq]
  simp only [waits, Bool.or_eq_true, List.any_eq_true]
  cases τ
  · exact .inr ⟨n, h, hn⟩
  · exact .inl ⟨n, h, hn⟩

/-- What keeps a run ineligible: its copy, its queue's policy, and no room but in queues that lead its port. -/
theorem IdleExcept.of {led : Port → Bool} {s t : State} (h : IdleHasNone s)
    (ports : ∀ p, (t.port p).state = .idle → led p = false →
      (s.port p).state = .idle ∧ ∀ τ n, n ∈ (t.port p).tierQueue τ → n ∈ (s.port p).tierQueue τ)
    (copies : ∀ p τ n, n ∈ (s.port p).tierQueue τ → n ∈ (t.port p).tierQueue τ →
      (t.run n).copy = (s.run n).copy)
    (room : ∀ q, (∀ x, waits t q x = true → led x = true)
      ∨ ((t.queue q).policy = (s.queue q).policy
        ∧ ((t.queue q).policy = .lossless → (t.queue q).hasRoom = true →
          (s.queue q).hasRoom = true))) : IdleExcept led t := by
  intro p hp hl τ n hn
  obtain ⟨hsp, hsub⟩ := ports p hp hl
  have hsn := hsub τ n hn
  have hcopy := copies p τ n hsn hn
  have hno := (idleHasNone_iff s).1 h p hsp τ n hsn
  rcases room (copyQueue (t.run n).copy) with hw | ⟨hpol, hroom⟩
  · have := hw p (waits_of_mem hn rfl)
    simp [hl] at this
  · rw [hcopy] at hpol hroom
    simp only [eligible, hcopy, hpol, Bool.or_eq_false_iff] at hno hroom ⊢
    refine ⟨hno.1, ?_⟩
    have hless : (s.queue (copyQueue (s.run n).copy)).policy = .lossless :=
      policy_eq_lossless_of_ne fun e => by simp [e] at hno
    exact Bool.eq_false_iff.2 fun hr => by simp [hroom hless hr] at hno

/-- Decisions leave no led port IDLE with an eligible run, and make no run eligible (04 R70, R71). -/
theorem Decided.idleHasNone {led : Port → Bool} {m t : State} (h : Decided led m t)
    (hm : IdleExcept led m) : IdleHasNone t := by
  obtain ⟨-, -, hports, hled, hruns, hqueues⟩ := h.effects
  rw [idleHasNone_iff]
  intro p hp τ n hn
  cases hl : led p with
  | true => exact hled p hl hp n ((mem_queues_iff _ n).2 ⟨τ, hn⟩)
  | false =>
    have hpm : t.port p = m.port p := (hports p).resolve_right fun h => by simp [hl] at h
    rw [hpm] at hp hn
    have hno := hm p hp hl τ n hn
    have hcopy : (t.run n).copy = (m.run n).copy := by
      rcases hruns n with h | ⟨h, -⟩ <;> rw [h]
    obtain ⟨hq, hle, -⟩ := hqueues (copyQueue (m.run n).copy)
    simp only [eligible, hcopy, Bool.or_eq_false_iff] at hno ⊢
    obtain ⟨hlossless, hfull⟩ := hno
    have hfull := of_decide_eq_false hfull
    rw [hq]
    simp only [Queue.occupancy] at hfull
    exact ⟨hlossless, decide_eq_false (by simp only [Queue.occupancy]; omega)⟩

/-- A run queued before and after a move keeps its copy. -/
theorem Move.copy_of_queued {led : Port → Bool} {s t : State} (h : Move led s t) (hs : RunsPlaced s)
    {p : Port} {τ : Tier} {n : Slot} (hn : n ∈ (s.port p).tierQueue τ)
    (hn' : n ∈ (t.port p).tierQueue τ) : (t.run n).copy = (s.run n).copy := by
  have hpend := (((hs.placed.seated n).queue p τ).1 hn).1
  have hpend' := ((((h.runsPlaced hs).placed.seated n).queue p τ).1 hn').1
  have noatt {x : Port} (att : (s.port x).attached = some n) : False :=
    hs.placed.not_attached_of_queued hn x att
  obtain ⟨k, hk⟩ := h.oneRun
  by_cases e : n = k
  · subst e
    have hstep := hk.step
    generalize t.run n = r at hstep hpend'
    cases hstep with
    | same => rfl
    | gone => simp [freeRun] at hpend'
    | admitted src below free valid => simp [hpend] at free
    | requeued p p' r att run target => exact (noatt att).elim
    | kept p r att run reserve valid target taken => exact (noatt att).elim
    | emptied p att => rfl
    | awaits p att => rfl
    | captured p b att more => rfl
    | marked att => rfl
    | granted p τ queued => rfl
  · rw [hk.others n e]

theorem PortRec.without_mem {P : PortRec} {τ σ : Tier} {n m : Slot}
    (h : m ∈ (P.without τ n).tierQueue σ) : m ∈ P.tierQueue σ := by
  rw [PortRec.without_tierQueue] at h
  split at h
  · exact List.mem_of_mem_erase h
  · exact h

/-- A port that a move leaves IDLE and does not lead was IDLE before, its queues no longer than before. -/
theorem Move.idle_of_not_led {led : Port → Bool} {s t : State} (h : Move led s t)
    (hs : RunsPlaced s) (p : Port) (hp : (t.port p).state = .idle) (hl : led p = false) :
    (s.port p).state = .idle ∧ ∀ τ n, n ∈ (t.port p).tierQueue τ → n ∈ (s.port p).tierQueue τ := by
  have same (e : t.port p = s.port p) :
      (s.port p).state = .idle ∧ ∀ τ n, n ∈ (t.port p).tierQueue τ → n ∈ (s.port p).tierQueue τ := by
    rw [e] at hp ⊢
    exact ⟨hp, fun _ _ => id⟩
  have ne {x : Port} (hx : led x = true) : p ≠ x := fun e => by simp [e, hx] at hl
  have one {u : State} {x : Port} {P : PortRec} (ht : t = u.setPort x P)
      (hu : u.port p = s.port p) (hP : P.state = .idle → led x = true) :
      (s.port p).state = .idle ∧ ∀ τ n, n ∈ (t.port p).tierQueue τ → n ∈ (s.port p).tierQueue τ := by
    by_cases hpx : p = x
    · subst hpx
      rw [ht, State.setPort_port_self] at hp
      simp [hP hp] at hl
    · exact same (by rw [ht, State.setPort_port_of_ne _ hpx, hu])
  cases h with
  | missed src cause => exact same rfl
  | counted ls ts k timers => exact same rfl
  | rejected n q rec free => exact same rfl
  | marked n att => exact same rfl
  | admitted src n below free valid leads =>
    refine same ?_
    rw [queuedRun_port, if_neg (ne leads)]
    rfl
  | ended x n P freed qs hp' att queues port idle ret => exact one rfl rfl idle
  | requeued x p' n r P freed qs hp' att unmarked queues run target port leads idle ret =>
    refine one rfl ?_ idle
    rw [queuedRun_port, if_neg (ne leads)]
    rfl
  | kept x n r P freed qs hp' att unmarked queues run reserve valid target taken port ret =>
    refine one rfl rfl fun h => ?_
    rcases port with ⟨g, rfl, -⟩ | rfl <;> simp [PortRec.keptGap, PortRec.frameStarted] at h
  | framed x n att gap => exact one rfl rfl fun h => by simp [PortRec.frameStarted] at h
  | awaits x n att shifting => exact one rfl rfl fun h => by simp at h
  | vacated x P att port idle => exact one rfl rfl idle
  | switched x st dest resting idle => exact one rfl rfl idle
  | sent x n f b att frame more =>
    refine one rfl rfl fun h => ?_
    rcases hs.attached_state att with ⟨e, -⟩ | ⟨e, -⟩ | ⟨e, -⟩ <;> simp [e] at h
  | received x n f b att frame more =>
    refine one rfl rfl fun h => ?_
    rcases hs.attached_state att with ⟨e, -⟩ | ⟨e, -⟩ | ⟨e, -⟩ <;> simp [e] at h
  | dropped n pending =>
    obtain ⟨x, hx, hq⟩ := hs.placed.pending_seat pending
    rw [endPending_of_port hx, State.setPort_port] at hp ⊢
    split at hp
    · next e =>
      subst e
      rw [if_pos rfl]
      refine ⟨?_, fun τ m => PortRec.without_mem⟩
      rwa [(PortRec.without_alike _ _ _).1] at hp
    · next e =>
      rw [if_neg e]
      exact ⟨hp, fun _ _ => id⟩
  | granted x τ n c idle queued elig =>
    by_cases hpx : p = x
    · subst hpx
      simp [(granted_port_self s p τ n c).1] at hp
    · exact same (granted_port_of_ne τ n c hpx)

/-- A move gives no queue room but the one it returns a reservation in, which leads the ports that wait. -/
theorem Move.room {led : Port → Bool} {s t : State} (h : Move led s t) (hs : RunsPlaced s)
    (q : QueueId) : (∀ x, waits t q x = true → led x = true)
      ∨ ((t.queue q).policy = .lossless → (t.queue q).hasRoom = true →
        (s.queue q).hasRoom = true) := by
  have settles {held taken freed : Option QueueId} {qs : Vector Queue 8}
      (hq : Settles s held taken freed qs) (ht : t.queue q = qs[q]) (ret : ReturnLeads led freed t) :
      (∀ x, waits t q x = true → led x = true)
        ∨ ((t.queue q).policy = .lossless → (t.queue q).hasRoom = true →
          (s.queue q).hasRoom = true) := by
    by_cases hf : freed = some q
    · exact .inl fun x => ret q x hf
    · right
      rw [ht, (hq.config q).2.1]
      exact hq.room q hf
  have none_leads (t : State) : ReturnLeads led none t := by simp [ReturnLeads]
  have hkeep := h.keeps
  cases h with
  | missed | counted | admitted | marked | framed | awaits | vacated | switched | sent | received =>
    exact .inr fun _ => id
  | rejected n x rec free =>
    exact settles (posted_settles s x rec false (by simp)) rfl (none_leads _)
  | ended p n P freed qs hp att queues port idle ret => exact settles queues rfl ret
  | requeued p p' n r P freed qs hp att unmarked queues run target port leads idle ret =>
    exact settles queues rfl ret
  | kept p n r P freed qs hp att unmarked queues run reserve valid target taken port ret =>
    exact settles queues rfl ret
  | dropped n pending =>
    obtain ⟨x, hx, hq⟩ := hs.placed.pending_seat pending
    rw [endPending_of_port hx] at settles ⊢
    exact settles (posted_settles s (copyQueue (s.run n).copy) (abortedRecord s n) false (by simp))
      rfl (none_leads _)
  | granted p τ n c idle queued elig =>
    right
    rw [granted_queue]
    split
    · intro _ hr
      have hr' : (s.queue q).occupancy + ((s.queue q).resv + 1) < (s.queue q).quota :=
        of_decide_eq_true hr
      exact decide_eq_true (by omega)
    · exact fun _ => id

theorem Move.idleExcept {led : Port → Bool} {s t : State} (h : Move led s t) (hs : RunsPlaced s)
    (hi : IdleHasNone s) : IdleExcept led t :=
  .of hi (h.idle_of_not_led hs) (fun _ _ _ hn hn' => h.copy_of_queued hs hn hn') fun q =>
    (h.room hs q).imp_right fun hr => ⟨(h.keeps.queue q).2.1, hr⟩

theorem Setting.idleExcept {led : Port → Bool} {s t : State} (h : Setting led s t)
    (hi : IdleHasNone s) : IdleExcept led t := by
  have ports (alike : ∀ p, (t.port p).state = (s.port p).state
      ∧ ∀ τ, (t.port p).tierQueue τ = (s.port p).tierQueue τ)
      (room : ∀ q, (∀ x, waits t q x = true → led x = true)
        ∨ ((t.queue q).policy = (s.queue q).policy
          ∧ ((t.queue q).policy = .lossless → (t.queue q).hasRoom = true →
            (s.queue q).hasRoom = true))) : IdleExcept led t :=
    .of hi (fun p hp _ => ⟨(alike p).1 ▸ hp, fun τ n => by rw [(alike p).2]; exact id⟩)
      (fun _ _ _ _ _ => by rw [h.run]) room
  have written {q : QueueId} {Q : Queue} (ht : t = s.setQueue q Q)
      (leads : (∀ x, waits t q x = true → led x = true)
        ∨ (Q.policy = (s.queue q).policy
          ∧ (Q.policy = .lossless → Q.hasRoom = true → (s.queue q).hasRoom = true))) :
      IdleExcept led t := by
    subst ht
    refine ports (fun p => ⟨rfl, fun τ => rfl⟩) fun x => ?_
    by_cases hx : x = q
    · subst hx
      rw [State.setQueue_queue_self]
      exact leads
    · rw [State.setQueue_queue_of_ne _ hx]
      exact .inr ⟨rfl, fun _ => id⟩
  cases h with
  | outside t same =>
    exact ports (fun p => by rw [same.port]; exact ⟨rfl, fun _ => rfl⟩) fun q => by
      rw [same.queue]; exact .inr ⟨rfl, fun _ => id⟩
  | target | entry => exact ports (fun p => ⟨rfl, fun _ => rfl⟩) fun q => .inr ⟨rfl, fun _ => id⟩
  | queue q Q quota policy resv threshold records =>
    refine written rfl ?_
    rcases records with hr | ⟨-, hl⟩
    · refine .inr ⟨policy, fun _ => ?_⟩
      simp only [Queue.hasRoom, Queue.occupancy, quota, resv, hr]
      exact id
    · exact .inl hl
  | quota q Q empty unreserved config unnamed sum threshold leads => exact written rfl (.inl leads)
  | port p P service =>
    refine ports (fun x => ?_) fun q => .inr ⟨rfl, fun _ => id⟩
    rw [State.setPort_port]
    split
    · next e => exact e ▸ ⟨service.alike.1, service.tierQueue⟩
    · exact ⟨rfl, fun _ => rfl⟩
  | passes t k same =>
    refine ports (fun p => ?_) fun q => by rw [same.queue]; exact .inr ⟨rfl, fun _ => id⟩
    rw [same.port_mapAll]
    exact ⟨(passPort_alike s k _).1, passPort_tierQueue s k _⟩
  | ticks t same =>
    refine ports (fun p => ?_) fun q => by rw [same.queue]; exact .inr ⟨rfl, fun _ => id⟩
    rw [same.port_mapAll]
    exact ⟨(tickPort_alike _).1, tickPort_tierQueue _⟩

theorem Change.idleHasNone {s t : State} (h : Change s t) (hs : RunsPlaced s) (hi : IdleHasNone s) :
    IdleHasNone t := by
  obtain ⟨led, m, hm, hd⟩ := h
  exact hd.idleHasNone (hm.elim (fun h => h.idleExcept hs hi) fun h => h.idleExcept hi)

/-- Settles O59: what a move or a setting makes eligible it leads to a decision, and a decision leaves no
eligible run on an IDLE port. -/
theorem stepLeavesNoEligibleRunOnIdlePort : Obligations.StepLeavesNoEligibleRunOnIdlePort := by
  intro s t hp _ hi h
  exact step_keeps_placed h hp hi (fun hc hs hi => hc.idleHasNone hs hi)
    (fun s _ p e => by rw [engineReset_port] at e; simp [engineResetPort] at e)
    fun s p e => by simp [resetPort] at e

end Sys2Proof.Machine
end

section
/-! The laws of the result queues' accounts (06 R105, R128) and of the capture buffers (03 R43), which every
step keeps wherever the runs are. -/

namespace Sys2Proof.Machine

-- Accounts

/-- Occupancy plus reservations of queue `Q` within its quota. -/
def Queue.Bounded (Q : Queue) : Prop := Q.occupancy + Q.resv ≤ Q.quota

theorem posted_bounded {s : State} (q : QueueId) (rec : Record) (held : Bool) (x : QueueId)
    (hr : held = true → 0 < (s.queue q).resv) (h : (s.queue x).Bounded) :
    ((posted s q rec held).queue x).Bounded :=
  (posted_settles s q rec held hr).bound x h

theorem endPending_bounded {s : State} (n : Slot) {x : QueueId} (h : (s.queue x).Bounded) :
    ((endPending n s).queue x).Bounded := by
  have hq : (endPending n s).queue x =
      (posted s (copyQueue (s.run n).copy) (abortedRecord s n) false).queue x := by
    simp only [endPending, postFree_eq_posted, freeSlot_eq_runGone, runGone_queue]
    cases (s.run n).port with
    | none => rfl
    | some p => simp only [leaveQueue_eq]; rfl
  rw [hq]
  exact posted_bounded _ _ _ x (by simp) h

theorem Move.bounded {led : Port → Bool} {s t : State} (h : Move led s t) {q : QueueId}
    (hb : (s.queue q).Bounded) : (t.queue q).Bounded := by
  cases h with
  | missed | counted | admitted | marked | framed | awaits | vacated | switched | sent | received =>
    exact hb
  | rejected n x rec free => exact posted_bounded x rec false q (by simp) hb
  | ended p n P freed qs hp att queues port idle ret => exact queues.bound q hb
  | requeued p p' n r P freed qs hp att unmarked queues run target port leads idle ret =>
    exact queues.bound q hb
  | kept p n r P freed qs hp att unmarked queues run reserve valid target taken port ret =>
    exact queues.bound q hb
  | dropped n pending => exact endPending_bounded n hb
  | granted p τ n c idle queued elig =>
    rw [granted_queue]
    split
    · next hq =>
      obtain ⟨rfl, hl⟩ := hq
      have hroom : (s.queue (copyQueue (s.run n).copy)).hasRoom = true := by
        simpa [eligible, hl] using elig
      have := of_decide_eq_true hroom
      simp only [Queue.Bounded, Queue.occupancy] at this ⊢
      omega
    · exact hb

/-- The quotas of all queues, with one of them set apart. -/
theorem quotaSum_setQueue (s : State) (q : QueueId) (Q : Queue) :
    quotaSum (s.setQueue q Q) = otherQuotas s q + Q.quota := by
  have hperm : allQueues.Perm (q :: allQueues.erase q) := List.perm_cons_erase (List.mem_finRange q)
  have herase : allQueues.erase q = allQueues.filter fun x => x != q :=
    (List.nodup_finRange 8).erase_eq_filter q
  have hrest : (allQueues.erase q).map (fun x => ((s.setQueue q Q).queue x).quota) =
      (allQueues.erase q).map fun x => (s.queue x).quota := by
    refine List.map_congr_left fun x hx => ?_
    rw [State.setQueue_queue_of_ne _ ((List.nodup_finRange 8).mem_erase_iff.1 hx).1]
  rw [quotaSum, (hperm.map _).sum_eq, List.map_cons, List.sum_cons, hrest,
    State.setQueue_queue_self, herase, Nat.add_comm]
  rfl

theorem quotaSum_congr {s t : State} (h : ∀ q, (t.queue q).quota = (s.queue q).quota) :
    quotaSum t = quotaSum s := by simp only [quotaSum, h]

/-- The same quotas and thresholds, and every queue bounded still. -/
theorem AccountingBounded.of_config {s t : State} (h : AccountingBounded s)
    (quota : ∀ q, (t.queue q).quota = (s.queue q).quota)
    (threshold : ∀ q, (t.queue q).threshold = (s.queue q).threshold
      ∨ (t.queue q).threshold.toNat ≤ (t.queue q).quota)
    (bounded : ∀ q, (s.queue q).Bounded → (t.queue q).Bounded) : AccountingBounded t := by
  refine ⟨fun q => ⟨bounded q (h.1 q).1, ?_⟩, by rw [quotaSum_congr quota]; exact h.2⟩
  rcases threshold q with ht | ht
  · rw [ht, quota]; exact (h.1 q).2
  · exact ht

theorem EngineKeeps.accounting {s t : State} (h : EngineKeeps s t)
    (bounded : ∀ q, (s.queue q).Bounded → (t.queue q).Bounded) (hs : AccountingBounded s) :
    AccountingBounded t :=
  hs.of_config (fun q => (h.queue q).1) (fun q => .inl (h.queue q).2.2.1) bounded

theorem Setting.accounting {led : Port → Bool} {s t : State} (h : Setting led s t)
    (hs : AccountingBounded s) : AccountingBounded t := by
  have same (e : ∀ q, t.queue q = s.queue q) : AccountingBounded t :=
    hs.of_config (fun q => by rw [e]) (fun q => .inl (by rw [e])) fun q => by rw [e]; exact id
  cases h with
  | outside t hc => exact same hc.queue
  | passes t k hc => exact same hc.queue
  | ticks t hc => exact same hc.queue
  | target | entry | port => exact same fun _ => rfl
  | queue q Q quota policy resv threshold records =>
    have hocc : Q.occupancy ≤ (s.queue q).occupancy := by
      rcases records with hr | ⟨hr, -⟩
      · rw [Queue.occupancy, hr]; exact le_rfl
      · exact hr
    refine hs.of_config (fun x => ?_) (fun x => ?_) fun x hb => ?_
    all_goals rw [State.setQueue_queue]; split
    · next e => subst e; exact quota
    · rfl
    · next e => subst e; exact threshold
    · exact .inl rfl
    · next e =>
      subst e
      simp only [Queue.Bounded, quota, resv] at hb ⊢
      omega
    · exact hb
  | quota q Q empty unreserved config unnamed sum threshold leads =>
    refine ⟨fun x => ?_, by rw [quotaSum_setQueue]; exact sum⟩
    rw [State.setQueue_queue]
    split
    · have hocc : Q.occupancy = 0 := by rw [config]; exact empty
      have hresv : Q.resv = 0 := by rw [config]; exact unreserved
      exact ⟨by omega, threshold⟩
    · exact hs.1 x

theorem Change.accounting {s t : State} (h : Change s t) (hs : AccountingBounded s) :
    AccountingBounded t :=
  h.keeps (fun hm => hm.keeps.accounting fun _ => hm.bounded) Setting.accounting hs

/-- An event on the queues alone among the accounts keeps them. -/
theorem AccountingBounded.of_queues {s t : State} (h : AccountingBounded s)
    (queues : ∀ q, t.queue q = s.queue q) : AccountingBounded t :=
  h.of_config (fun q => by rw [queues]) (fun q => .inl (by rw [queues])) fun q => by
    rw [queues]; exact id

theorem foldl_endPending_keeps {I : State → Prop} (h : ∀ s n, I s → I (endPending n s))
    (l : List Slot) {s : State} (hs : I s) : I (l.foldl (fun st n => endPending n st) s) := by
  induction l generalizing s with
  | nil => exact hs
  | cons n l ih => exact ih (h s n hs)

/-- What an abort of an attached run, the end of PENDING runs and a change of a port keep, PORT_RESET keeps. -/
theorem resetPortCmd_keeps {I : State → Prop} (abort : ∀ s p n, I s → I (abortAttached p n s))
    (pending : ∀ s n, I s → I (endPending n s)) (port : ∀ s p P, I s → I (s.setPort p P))
    (p : Port) {s : State} (hs : I s) : I (resetPortCmd p s) := by
  have hatt : I (resetAttached p s) := by
    unfold resetAttached
    split
    · exact hs
    · exact abort _ _ _ hs
  exact port _ _ _ (foldl_endPending_keeps pending _ (foldl_endPending_keeps pending _ hatt))

theorem abortAttached_move {s : State} (p : Port) (n : Slot) :
    ∃ rec, abortAttached p n s =
      (posted (runGone s n) (postQueue s n) rec (converts s n)).setPort p
        { s.port p with attached := none } :=
  ⟨_, freeSlot_detach_postHeld p n _ s⟩

theorem abortAttached_accounting {s : State} (p : Port) (n : Slot) (hs : AccountingBounded s) :
    AccountingBounded (abortAttached p n s) := by
  obtain ⟨rec, h⟩ := abortAttached_move (s := s) p n
  have hq (q : QueueId) : (abortAttached p n s).queue q =
      (posted s (postQueue s n) rec (converts s n)).queue q := by rw [h]; rfl
  have hset := postHeld_settles n rec s
  refine hs.of_config (fun q => ?_) (fun q => .inl ?_) fun q hb => ?_
  all_goals rw [hq]
  · exact (hset.config q).1
  · exact (hset.config q).2.2.1
  · exact hset.bound q hb

/-- Settles O52: postings, returns and grants keep each queue within its quota, and the writes of quotas and
thresholds are checked. -/
theorem stepKeepsAccountingBounded : Obligations.StepKeepsAccountingBounded := by
  intro s t hs h
  refine step_keeps (A := fun _ => True) h trivial hs (fun s t hc _ hi => ⟨trivial, hc.accounting hi⟩)
    (fun s _ hi => ?_) (fun s => ?_) fun p s _ hi => ?_
  · refine hi.of_config (fun q => ?_) (fun q => .inl ?_) fun q _ => ?_
    all_goals rw [engineReset_queue]
    · rfl
    · rfl
    · exact Nat.zero_le _
  · refine ⟨fun q => by simp [resetQueue, Queue.occupancy], ?_⟩
    rw [show quotaSum (startedUp s) = quotaSum State.reset from rfl]
    decide +kernel
  · exact resetPortCmd_keeps (fun _ p n h => abortAttached_accounting p n h)
      (fun s n h => (EngineKeeps.endPending s n).accounting (fun _ => endPending_bounded n) h)
      (fun _ _ _ h => h.of_queues fun _ => rfl) p hi

-- Captures

/-- The capture buffer of run `r` holds no more than its copy receives, nor does that exceed 16 (03 R43). -/
def Captured (r : Run) : Prop :=
  r.capture.length ≤ copyRxLen r.copy ∧ copyRxLen r.copy ≤ 16

theorem capturesBounded_iff (s : State) : CapturesBounded s ↔ ∀ n, Captured (s.run n) := Iff.rfl

theorem captured_freeRun : Captured freeRun := by
  unfold Captured
  decide

theorem copyValid_rxLen {s : State} {c : DescCopy} (h : copyValid s c = true) : copyRxLen c ≤ 16 := by
  simp only [copyValid, Bool.and_eq_true, decide_eq_true_eq] at h
  exact h.1.1.1.1.1.1.1.2

theorem RunStep.captured_bound {s : State} {n : Slot} {r : Run} (h : RunStep s n r)
    (hc : Captured (s.run n)) : Captured r := by
  have emptied {r : Run} (e : r.capture = []) (hr : copyRxLen r.copy ≤ 16) : Captured r :=
    ⟨by simp [e], hr⟩
  cases h with
  | same => exact hc
  | gone => exact captured_freeRun
  | admitted src below free valid => exact emptied rfl (copyValid_rxLen valid)
  | requeued p p' r att run target =>
    refine emptied (by rw [run]) ?_
    rcases target with ⟨valid, -⟩ | ⟨hcopy, -⟩
    · exact copyValid_rxLen valid
    · rw [hcopy]; exact hc.2
  | kept p r att run reserve valid target taken =>
    exact emptied (by rw [run]) (copyValid_rxLen valid)
  | emptied p att => exact emptied rfl hc.2
  | awaits p att => exact hc
  | captured p b att more =>
    refine ⟨?_, hc.2⟩
    rw [List.length_append, List.length_singleton]
    exact more
  | marked att => exact hc
  | granted p τ queued => exact emptied rfl hc.2

theorem Change.captures {s t : State} (h : Change s t) (hs : CapturesBounded s) :
    CapturesBounded t := by
  refine h.keeps (fun hm hc m => ?_) (fun hm hc m => by rw [hm.run]; exact hc m) hs
  obtain ⟨n, hn⟩ := hm.oneRun
  by_cases e : m = n
  · exact e ▸ hn.step.captured_bound (hc n)
  · rw [hn.others m e]; exact hc m

theorem capturesBounded_of_gone {s t : State} {n : Slot} (hs : CapturesBounded s)
    (h : ∀ m, t.run m = if m = n then freeRun else s.run m) : CapturesBounded t := by
  intro m
  rw [h]
  split
  · exact captured_freeRun
  · exact hs m

theorem step_captures {s t : State} (h : step s = .next t) (hs : CapturesBounded s) :
    CapturesBounded t := by
  refine step_keeps (A := fun _ => True) h trivial hs (fun s t hc _ hi => ⟨trivial, hc.captures hi⟩)
    (fun s _ _ n => ?_) (fun s n => ?_) fun p s _ hi => ?_
  · rw [engineReset_run]; exact captured_freeRun
  · rw [startedUp_run]; exact captured_freeRun
  · refine resetPortCmd_keeps (fun s p n h => ?_)
      (fun s n h => capturesBounded_of_gone h (endPending_run n s)) (fun _ _ _ h => h) p hi
    obtain ⟨rec, e⟩ := abortAttached_move (s := s) p n
    refine capturesBounded_of_gone (n := n) h fun m => ?_
    rw [e]
    exact runGone_run s n m

end Sys2Proof.Machine
end

section
/-! What a command does to the part outside the run pool, the ports and the queues (chapters 7 to 9): events of
the engine, refusals, accesses to the bus registers, and part clocks. The commands that write the
configuration, the notification stack or the reset state are set apart. -/

namespace Sys2Proof.Machine

/-- What a command other than a configuration, notification or reset command does, piece by piece. -/
inductive Act : State → State → Prop
  /-- An event of the engine, a latch or a count cleared, records removed. -/
  | engine {s t : State} (h : EngineKeeps s t) : Act s t
  | refused (s : State) (c : FaultCode) : Act s (refuse c s)
  | closed (s : State) : Act s { s with claim := .closed }
  | clearedFault (s : State) : Act s (clearFault s)
  /-- The part's mode, the registers of the bus interface, the data lines. -/
  | bus (s : State) (m : PartMode) (tsel : Fin 9) (tidx : BitVec 10) (rqsel : QueueId) (ptr : Nat)
      (out latch : Byte) :
    Act s { s with
      mode := m, tsel := tsel, tidx := tidx, rqsel := rqsel, headPtr := ptr, dataOut := out,
      tsLatch := latch }

/-- Such pieces, one after the other. -/
def Acts : State → State → Prop := Relation.ReflTransGen Act

/-- The same, with part clocks and ticks among them. -/
inductive TimeAct : State → State → Prop
  | act {s t : State} (h : Act s t) : TimeAct s t
  | passes (s : State) (k : Nat) : TimeAct s (passClocks k s)
  | counts (s : State) (h : s.clockCount < s.tickDiv.toNat) :
    TimeAct s { s with clockCount := s.clockCount + 1 }
  | ticks (s : State) : TimeAct s (takeTick s)

def TimeActs : State → State → Prop := Relation.ReflTransGen TimeAct

theorem Acts.refl (s : State) : Acts s s := Relation.ReflTransGen.refl

theorem Acts.trans {s t u : State} (h : Acts s t) (h' : Acts t u) : Acts s u :=
  Relation.ReflTransGen.trans h h'

theorem Act.acts {s t : State} (h : Act s t) : Acts s t := .single h

theorem EngineKeeps.acts {s t : State} (h : EngineKeeps s t) : Acts s t := (Act.engine h).acts

theorem Events.acts {s t : State} (h : Events s t) : Acts s t := h.keeps.acts

theorem TimeActs.trans {s t u : State} (h : TimeActs s t) (h' : TimeActs t u) : TimeActs s u :=
  Relation.ReflTransGen.trans h h'

theorem TimeAct.acts {s t : State} (h : TimeAct s t) : TimeActs s t := .single h

theorem Acts.time {s t : State} (h : Acts s t) : TimeActs s t :=
  Relation.ReflTransGen.mono (fun _ _ => TimeAct.act) _ _ h

/-- A property that every piece keeps. -/
theorem Acts.keeps {R : State → State → Prop} {s t : State} (h : Acts s t) (refl : ∀ s, R s s)
    (trans : ∀ {s t u}, R s t → R t u → R s u) (act : ∀ {s t}, Act s t → R s t) : R s t := by
  induction h with
  | refl => exact refl _
  | tail _ hlast ih => exact trans ih (act hlast)

theorem TimeActs.keeps {R : State → State → Prop} {s t : State} (h : TimeActs s t)
    (refl : ∀ s, R s s) (trans : ∀ {s t u}, R s t → R t u → R s u)
    (act : ∀ {s t}, TimeAct s t → R s t) : R s t := by
  induction h with
  | refl => exact refl _
  | tail _ hlast ih => exact trans ih (act hlast)

-- The gates

theorem whenRunning_acts {f : State → State} (h : ∀ s, Acts s (f s)) (s : State) :
    Acts s (whenRunning f s) := by
  unfold whenRunning
  split
  · exact h s
  · exact .refl s

theorem hostWrite_acts {f : State → State} (h : ∀ s, Acts s (f s)) (s : State) :
    Acts s (hostWrite f s) := by
  unfold hostWrite
  split
  · exact (Act.closed s).acts.trans (h _)
  · exact .refl s

theorem dataOut_acts (s : State) (b : Byte) : Acts s { s with dataOut := b } :=
  (Act.bus s s.mode s.tsel s.tidx s.rqsel s.headPtr b s.tsLatch).acts

theorem hostRead_acts {f : State → State} (h : ∀ s, Acts s (f s)) (s : State) :
    Acts s (hostRead f s) := by
  unfold hostRead
  split
  · exact (Act.closed s).acts.trans (h _)
  · exact dataOut_acts s 0

theorem withArg_acts {n : Nat} {f : Fin n → State → State} (h : ∀ i s, Acts s (f i s)) (s : State) :
    Acts s (withArg n f s) := by
  unfold withArg
  split
  · exact (Act.refused s _).acts
  · exact h _ s

-- Part clocks

theorem partClock_acts (s : State) : TimeActs s (partClock s) := by
  have hs : TimeActs s (passClocks 1 (settleDue s)) :=
    (settleDue_events s).acts.time.trans (TimeAct.passes _ 1).acts
  simp only [partClock]
  split
  · next h => exact hs.trans (TimeAct.counts _ h).acts
  · exact hs.trans (TimeAct.ticks _).acts

theorem afterClocks_acts (k : Nat) (s : State) : TimeActs s (afterClocks k s) := by
  induction k generalizing s with
  | zero => exact Relation.ReflTransGen.refl
  | succ k ih => exact (partClock_acts s).trans (ih _)

theorem reachTick_acts (s : State) : TimeActs s (reachTick s) :=
  ((settleDue_events s).acts.time.trans (TimeAct.passes _ _).acts).trans (TimeAct.ticks _).acts

theorem whenRunning_time {f : State → State} (h : ∀ s, TimeActs s (f s)) (s : State) :
    TimeActs s (whenRunning f s) := by
  unfold whenRunning
  split
  · exact h s
  · exact Relation.ReflTransGen.refl

-- Queues, timers and latches

theorem EngineKeeps.setQueue {s : State} {q : QueueId} {Q : Queue} (h : (s.queue q).SameConfig Q) :
    EngineKeeps s (s.setQueue q Q) := by
  refine ⟨rfl, fun _ => .refl _, fun x => ?_, fun _ => ⟨.refl _, rfl⟩, fun _ => ⟨rfl, rfl⟩⟩
  rw [State.setQueue_queue]
  split
  · next e => exact e ▸ h
  · exact .refl _

theorem EngineKeeps.headPtr (s : State) (k : Nat) : EngineKeeps s { s with headPtr := k } :=
  ⟨rfl, fun _ => .refl _, fun _ => .refl _, fun _ => ⟨.refl _, rfl⟩, fun _ => ⟨rfl, rfl⟩⟩

theorem EngineKeeps.setTimer {s : State} {k : TimerId} {T : Timer}
    (h : T.reload = (s.timer k).reload ∧ T.mode = (s.timer k).mode) :
    EngineKeeps s (s.setTimer k T) := by
  refine ⟨rfl, fun _ => .refl _, fun _ => .refl _, fun _ => ⟨.refl _, rfl⟩, fun x => ?_⟩
  rw [State.setTimer_timer]
  split
  · next e => exact e ▸ h
  · exact ⟨rfl, rfl⟩

theorem decideWhere_keeps (led : Port → Bool) (s : State) : EngineKeeps s (decideWhere led s) :=
  (decideWhere_decided led s).engineKeeps

theorem flush_acts (q : QueueId) (s : State) : Acts s (flush q s) := by
  have hq : EngineKeeps s (s.setQueue q { s.queue q with records := [] }) := .setQueue (.refl _)
  simp only [flush, queueChanged]
  split
  · exact ((hq.trans (.headPtr _ 0)).trans (decideWhere_keeps _ _)).acts
  · exact (hq.trans (decideWhere_keeps _ _)).acts

theorem release_acts (v : Byte) (s : State) : Acts s (release v s) := by
  simp only [release]
  split
  · exact (Act.refused s _).acts
  · split
    · refine EngineKeeps.acts (EngineKeeps.trans (EngineKeeps.trans (.headPtr s 0)
        (EngineKeeps.setQueue ?_)) (decideWhere_keeps _ _))
      exact .refl (s.queue s.rqsel)
    · exact (Act.refused s _).acts

theorem clearMissLatches_acts (reg : Fin 3) (v : Byte) (s : State) :
    Acts s (clearMissLatches reg v s) := by
  have hfold (l : List Source) (s : State) : EngineKeeps s (l.foldl (fun st n =>
      if n.val / 8 = reg.val ∧ bitOf v (n.val % 8) = true then clearMissLatch n st else st) s) := by
    induction l generalizing s with
    | nil => exact .refl s
    | cons n l ih =>
      refine EngineKeeps.trans ?_ (ih _)
      dsimp only
      split
      · refine EngineKeeps.setTrigger (.refl s) ?_
        rfl
      · exact .refl s
  exact (hfold allSources s).acts

theorem selectTable_acts (v : Byte) (s : State) : Acts s (selectTable v s) := by
  unfold selectTable
  split
  · exact (Act.refused s _).acts
  · exact (Act.bus s s.mode _ 0 s.rqsel s.headPtr s.dataOut s.tsLatch).acts

theorem selectQueue_acts (v : Byte) (s : State) : Acts s (selectQueue v s) := by
  unfold selectQueue
  split
  · exact (Act.refused s _).acts
  · exact (Act.bus s s.mode s.tsel s.tidx _ 0 s.dataOut s.tsLatch).acts

theorem readHead_acts (s : State) : Acts s (readHead s) := by
  unfold readHead
  split
  · exact dataOut_acts s 0
  · exact (Act.bus s s.mode s.tsel s.tidx s.rqsel _ _ s.tsLatch).acts

theorem softwareTrigger_acts (v : Byte) (s : State) : Acts s (softwareTrigger v s) := by
  unfold softwareTrigger
  split
  · exact (Act.refused s _).acts
  · exact (triggerEvent_events _ s).acts

theorem setTimer_acts {s : State} {k : TimerId} {T : Timer} (hr : T.reload = (s.timer k).reload)
    (hm : T.mode = (s.timer k).mode) : Acts s (s.setTimer k T) :=
  (EngineKeeps.setTimer ⟨hr, hm⟩).acts

theorem clearLatches_acts (v : Byte) (s : State) : Acts s (clearLatches v s) := by
  refine EngineKeeps.acts (EngineKeeps.setQueue ?_)
  exact .refl (s.queue s.rqsel)

theorem clearLostCount_acts (s : State) : Acts s (clearLostCount s) := by
  refine EngineKeeps.acts (EngineKeeps.setQueue ?_)
  exact .refl (s.queue s.rqsel)

theorem startTimer_acts (k : TimerId) (s : State) : Acts s (startTimer k s) := by
  refine (timerExpires_events k s).acts.trans ?_
  simp only [startTimer]
  split
  · exact (Act.refused _ _).acts
  · exact setTimer_acts rfl rfl

theorem stopTimer_acts (k : TimerId) (s : State) : Acts s (stopTimer k s) :=
  (timerExpires_events k s).acts.trans (setTimer_acts rfl rfl)

/-- The commands that write the configuration, the notification stack or the reset state, and those that
stand for part clocks. -/
def setApart : Instr → Bool
  | .tdataWrite _ | .nctrlWrite _ | .registerWrite _ _ | .nclaimRead _ | .nendWrite _
  | .startUpEnd | .engineReset | .portReset _ | .portAbort _ | .tick => true
  | _ => false

/-- Every other command is made of such pieces. -/
theorem exec_acts {c : Instr} {s t : State} (h : exec c s = .next t) (hc : setApart c = false) :
    Acts s t := by
  cases c with
  | tdataWrite | nctrlWrite | registerWrite | nclaimRead | nendWrite | startUpEnd | engineReset
  | portReset | portAbort | tick => simp [setApart] at hc
  | badCommand code =>
    change execBadCommand code s = .next t at h
    unfold execBadCommand at h
    split at h
    · cases h
    · cases h
      exact hostWrite_acts (fun s => (Act.refused s _).acts) s
  | deviceReset =>
    obtain rfl := Host.Outcome.next.inj h
    exact (Act.closed s).acts.trans
      (Act.bus _ .inReset s.tsel s.tidx s.rqsel s.headPtr s.dataOut s.tsLatch).acts
  | resetRelease =>
    obtain rfl := Host.Outcome.next.inj h
    split
    · exact (Act.bus s .startUp s.tsel s.tidx s.rqsel s.headPtr s.dataOut s.tsLatch).acts
    · exact .refl s
  | triggerLineEdge n level =>
    obtain rfl := Host.Outcome.next.inj h
    exact (setLine_events n _ s).acts.trans
      (whenRunning_acts (fun s => (lineSees_events n level s).acts) _)
  | holdOffExpiry n =>
    obtain rfl := Host.Outcome.next.inj h
    exact whenRunning_acts (fun s => (holdOffOver_events n s).acts) s
  | intervalTimerExpiry k =>
    obtain rfl := Host.Outcome.next.inj h
    exact whenRunning_acts (fun s => (timerExpires_events k s).acts) s
  | frameEnd p ready =>
    obtain rfl := Host.Outcome.next.inj h
    exact whenRunning_acts (fun s => (frameEnds_events p ready s).acts) s
  | readyArrival p level =>
    obtain rfl := Host.Outcome.next.inj h
    exact whenRunning_acts (fun s => (readyArrives_events p level s).acts) s
  | readyTimeoutExpiry p =>
    obtain rfl := Host.Outcome.next.inj h
    exact whenRunning_acts (fun s => (readyTimesOut_events p s).acts) s
  | gapExpiry p =>
    obtain rfl := Host.Outcome.next.inj h
    exact whenRunning_acts (fun s => (gapExpires_events p s).acts) s
  | cutByteEnd p =>
    obtain rfl := Host.Outcome.next.inj h
    exact whenRunning_acts (fun s => (cutByteEnds_events p s).acts) s
  | transmitByteBegins p =>
    obtain rfl := Host.Outcome.next.inj h
    exact whenRunning_acts (fun s => (transmitBegins_events p s).acts) s
  | receiveByteSampled p bits =>
    obtain rfl := Host.Outcome.next.inj h
    exact whenRunning_acts (fun s => (receiveSampled_events p bits s).acts) s
  | portResume =>
    obtain rfl := Host.Outcome.next.inj h
    exact hostWrite_acts (withArg_acts fun p s => (resumePort_events p s).acts) s
  | cancelTrigger =>
    obtain rfl := Host.Outcome.next.inj h
    exact hostWrite_acts (withArg_acts fun src s => (cancelSource_events src s).acts) s
  | flushQueue =>
    obtain rfl := Host.Outcome.next.inj h
    exact hostWrite_acts (withArg_acts flush_acts) s
  | timerStart =>
    obtain rfl := Host.Outcome.next.inj h
    exact hostWrite_acts (withArg_acts startTimer_acts) s
  | timerStop =>
    obtain rfl := Host.Outcome.next.inj h
    exact hostWrite_acts (withArg_acts stopTimer_acts) s
  | swtrigWrite v =>
    obtain rfl := Host.Outcome.next.inj h
    exact hostWrite_acts (softwareTrigger_acts v) s
  | hfaultWrite v =>
    obtain rfl := Host.Outcome.next.inj h
    exact hostWrite_acts (fun s => (Act.clearedFault s).acts) s
  | tselWrite v =>
    obtain rfl := Host.Outcome.next.inj h
    exact hostWrite_acts (selectTable_acts v) s
  | tdataRead =>
    obtain rfl := Host.Outcome.next.inj h
    exact hostRead_acts (f := readTdata)
      (fun s => (Act.bus s s.mode s.tsel _ s.rqsel s.headPtr _ s.tsLatch).acts) s
  | rqselWrite v =>
    obtain rfl := Host.Outcome.next.inj h
    exact hostWrite_acts (selectQueue_acts v) s
  | rqflagsWrite v =>
    obtain rfl := Host.Outcome.next.inj h
    exact hostWrite_acts (clearLatches_acts v) s
  | rqlostWrite v =>
    obtain rfl := Host.Outcome.next.inj h
    exact hostWrite_acts clearLostCount_acts s
  | rqheadRead =>
    obtain rfl := Host.Outcome.next.inj h
    exact hostRead_acts readHead_acts s
  | rqreleaseWrite v =>
    obtain rfl := Host.Outcome.next.inj h
    exact hostWrite_acts (release_acts v) s
  | tstampLoRead =>
    obtain rfl := Host.Outcome.next.inj h
    exact hostRead_acts (f := readTimestamp)
      (fun s => (Act.bus s s.mode s.tsel s.tidx s.rqsel s.headPtr _ _).acts) s
  | missLatchClear reg v =>
    obtain rfl := Host.Outcome.next.inj h
    exact hostWrite_acts (clearMissLatches_acts reg v) s
  | readOnlyWrite reg v =>
    obtain rfl := Host.Outcome.next.inj h
    exact hostWrite_acts (fun s => (Act.refused s _).acts) s

end Sys2Proof.Machine
end

section
/-! What the set-apart commands leave: table writes touch only the tables' owners and the fault record (09
R170), PORT_RESET clears one port's enable, and no other command writes the configuration (09 9.4). -/

namespace Sys2Proof.Machine

-- Table writes

/-- The items of the tables' owners but for the two stores, and the model's count of open orders, changed, and
nothing else (09 R170). -/
def TableWritten (s t : State) : Prop :=
  t = { s with
    targets := t.targets, trig := t.trig, runs := t.runs, ports := t.ports, queues := t.queues,
    groups := t.groups, timers := t.timers, raceCount := t.raceCount }

/-- A byte written to a store, offered to another table's owner, or refused (09 R170). -/
inductive Written (s : State) : State → Prop
  | desc (i : Nat) (v : Byte) : Written s { s with desc := memWrite s.desc i v }
  | pattern (i : Nat) (v : Byte) : Written s { s with pattern := memWrite s.pattern i v }
  | table {t : State} (h : TableWritten s t) : Written s t
  | refused (c : FaultCode) : Written s (refuse c s)

theorem decideWhere_written {s t : State} (led : Port → Bool) (h : TableWritten s t) :
    Written s (decideWhere led t) := by
  refine .table ?_
  unfold TableWritten at h ⊢
  rw [(decideWhere_decided led t).effects.1, h]

theorem writeTarget_written (i : Nat) (v : Byte) (s : State) : Written s (writeTarget i v s) := by
  simp only [writeTarget]
  split
  · exact .refused _
  · split
    · exact .refused _
    · split
      · exact .refused _
      · exact .table rfl

theorem writeTrigger_written (i : Nat) (v : Byte) (s : State) : Written s (writeTrigger i v s) := by
  simp only [writeTrigger, writeTriggerAnyTime]
  split
  · split
    · exact .refused _
    · exact .table rfl
  · split
    · exact .table rfl
    · split
      · exact .table rfl
      · split
        · exact .refused _
        · split
          · exact .refused _
          · exact .table rfl

theorem writeQuota_written (q : QueueId) (v : Byte) (s : State) : Written s (writeQuota q v s) := by
  simp only [writeQuota]
  split
  · exact .refused _
  · split
    · exact .refused _
    · split
      · exact .refused _
      · split
        · exact .refused _
        · split
          · exact .refused _
          · exact decideWhere_written _ rfl

theorem writeQueue_written (i : Nat) (v : Byte) (s : State) : Written s (writeQueue i v s) := by
  simp only [writeQueue]
  split
  · exact writeQuota_written _ v s
  · split
    · exact .refused _
    · exact .table rfl
  · exact .table rfl
  · exact .table rfl

theorem writePortEnable_written {s t : State} (p : Port) (on : Bool) (h : TableWritten s t) :
    Written s (writePortEnable p on t) := by
  have port (P : PortRec) : TableWritten s (t.setPort p P) := by
    unfold TableWritten at h ⊢
    rw [h]
    rfl
  simp only [writePortEnable]
  split
  · exact decideWhere_written _ (port _)
  · exact .table (port _)
  · exact .table (port _)

theorem writePort_written (i : Nat) (v : Byte) (s : State) : Written s (writePort i v s) := by
  simp only [writePort]
  split
  · exact writePortEnable_written _ _ rfl
  · exact .table rfl
  · exact .table rfl

theorem writeTimer_written (i : Nat) (v : Byte) (s : State) : Written s (writeTimer i v s) := by
  simp only [writeTimer]
  split <;> exact .table rfl

theorem writeGroup_written (i : Nat) (v : Byte) (s : State) : Written s (writeGroup i v s) := by
  simp only [writeGroup]
  split <;> exact .table rfl

theorem tableWrite_written (tb : Fin 9) (i : Nat) (v : Byte) (s : State) :
    Written s (tableWrite tb i v s) := by
  unfold tableWrite
  split
  · exact .desc i v
  · exact .pattern i v
  · exact writeTarget_written i v s
  · exact writeTrigger_written i v s
  · exact writeQueue_written i v s
  · exact writeGroup_written i v s
  · exact .refused _
  · exact writePort_written i v s
  · exact writeTimer_written i v s

/-- A TDATA write but for the index is a table write or a refusal (09 R170). -/
theorem writeTdata_written (v : Byte) (s : State) : ∃ u, Written s u
    ∧ writeTdata v s = { u with tidx := nextIndex s.tsel s.tidx.toNat } := by
  refine ⟨_, ?_, rfl⟩
  split
  · exact tableWrite_written _ _ v s
  · exact .refused _

/-- What a TDATA write does to items of neither tables nor fault record, whatever the part's mode. -/
theorem tdataWrite_keeps {v : Byte} {s t : State} (h : exec (.tdataWrite v) s = .next t) :
    t.nen = s.nen ∧ t.nlow = s.nlow ∧ t.tbdiv = s.tbdiv ∧ t.commandArg = s.commandArg
    ∧ t.stack = s.stack ∧ (t.claim = s.claim ∨ t.claim = .closed) ∧ t.irqSample = s.irqSample
    ∧ t.clockCount = s.clockCount ∧ t.tickDiv = s.tickDiv := by
  obtain rfl := Host.Outcome.next.inj h
  unfold hostWrite
  split
  · obtain ⟨u, hu, he⟩ := writeTdata_written v { s with claim := .closed }
    rw [he]
    cases hu with
    | desc i v => exact ⟨rfl, rfl, rfl, rfl, rfl, .inr rfl, rfl, rfl, rfl⟩
    | pattern i v => exact ⟨rfl, rfl, rfl, rfl, rfl, .inr rfl, rfl, rfl, rfl⟩
    | table hu => rw [hu]; exact ⟨rfl, rfl, rfl, rfl, rfl, .inr rfl, rfl, rfl, rfl⟩
    | refused c =>
      unfold refuse
      split <;> exact ⟨rfl, rfl, rfl, rfl, rfl, .inr rfl, rfl, rfl, rfl⟩
  · exact ⟨rfl, rfl, rfl, rfl, rfl, .inl rfl, rfl, rfl, rfl⟩

-- PORT_RESET

theorem abortAttached_keeps (p : Port) (n : Slot) (s : State) : EngineKeeps s (abortAttached p n s) := by
  obtain ⟨rec, h⟩ := abortAttached_move (s := s) p n
  rw [h]
  exact ((EngineKeeps.results (posted s (postQueue s n) rec (converts s n)).headPtr
    (postHeld_settles n rec s).config).runGone n).setPort (.refl _) rfl

theorem drainQueues_keeps (p : Port) (s : State) : EngineKeeps s (drainQueues p s) := by
  have fold (l : List Slot) (u : State) (hu : EngineKeeps s u) :
      EngineKeeps s (l.foldl (fun st n => endPending n st) u) :=
    foldl_endPending_keeps (I := EngineKeeps s) (fun u n h => h.trans (.endPending u n)) l hu
  exact fold _ _ (fold _ _ (.refl s))

theorem resetAttached_keeps (p : Port) (s : State) : EngineKeeps s (resetAttached p s) := by
  unfold resetAttached
  split
  · exact .refl s
  · exact abortAttached_keeps _ _ s

/-- PORT_RESET keeps all that the engine keeps but one port's enable (05 R102). -/
theorem resetPortCmd_keeps_tables (p : Port) (s : State) : ∃ u P, EngineKeeps s u
    ∧ (u.port p).SameSettings P ∧ resetPortCmd p s = u.setPort p P := by
  refine ⟨drainQueues p (resetAttached p s), _,
    (resetAttached_keeps p s).trans (drainQueues_keeps p _), ?_, rfl⟩
  split <;> exact ⟨rfl, rfl, rfl, rfl⟩

/-- What a PORT_RESET makes of the state: pieces and part clocks, and after them one port's settings but its
enable kept. -/
theorem portReset_acts {k : Nat} {s t : State} (h : exec (.portReset k) s = .next t) :
    ∃ u, TimeActs s u ∧ (k = 0 → Acts s u)
      ∧ (t = u ∨ ∃ p P, (u.port p).SameSettings P ∧ t = u.setPort p P) := by
  obtain rfl := Host.Outcome.next.inj h
  have hclocks := whenRunning_time (afterClocks_acts k) s
  have hnone : k = 0 → whenRunning (afterClocks k) s = s := by
    rintro rfl
    unfold whenRunning
    split <;> rfl
  generalize whenRunning (afterClocks k) s = w at hclocks hnone
  have extend {u : State} (hu : Acts w u) : TimeActs s u ∧ (k = 0 → Acts s u) :=
    ⟨hclocks.trans hu.time, fun hk => hnone hk ▸ hu⟩
  unfold hostWrite
  split
  · unfold withArg
    split
    · exact ⟨_, (extend ((Act.closed w).acts.trans (Act.refused _ _).acts)).1,
        (extend ((Act.closed w).acts.trans (Act.refused _ _).acts)).2, .inl rfl⟩
    · next p _ =>
      obtain ⟨u, P, hu, hP, he⟩ := resetPortCmd_keeps_tables p { w with claim := .closed }
      obtain ⟨ht, hz⟩ := extend ((Act.closed w).acts.trans hu.acts)
      exact ⟨u, ht, hz, .inr ⟨p, P, hP, he⟩⟩
  · exact ⟨w, hclocks, fun hk => hnone hk ▸ .refl s, .inl rfl⟩

theorem portAbort_acts {k : Nat} {s t : State} (h : exec (.portAbort k) s = .next t) :
    TimeActs s t ∧ (k = 0 → Acts s t) := by
  obtain rfl := Host.Outcome.next.inj h
  have habort := hostWrite_acts (withArg_acts fun p s => (abortPort_events p s).acts)
    (whenRunning (afterClocks k) s)
  refine ⟨(whenRunning_time (afterClocks_acts k) s).trans habort.time, ?_⟩
  rintro rfl
  have hnone : whenRunning (afterClocks 0) s = s := by
    unfold whenRunning
    split <;> rfl
  rwa [hnone] at habort ⊢

theorem tick_acts {s t : State} (h : exec .tick s = .next t) : TimeActs s t := by
  obtain rfl := Host.Outcome.next.inj h
  exact whenRunning_time reachTick_acts s

-- The configuration

/-- Tables, enables and configuration registers as they were. -/
structure ConfigKept (s t : State) : Prop where
  tables : SameTables s t
  nctrl : t.nen = s.nen ∧ t.nlow = s.nlow
  tbdiv : t.tbdiv = s.tbdiv
  commandArg : t.commandArg = s.commandArg
  enable : ∀ p, (t.port p).enable = (s.port p).enable

theorem SameTables.refl (s : State) : SameTables s s := (EngineKeeps.refl s).sameTables

theorem SameTables.trans {s t u : State} (h : SameTables s t) (h' : SameTables t u) :
    SameTables s u := by
  obtain ⟨a, b, c, d, trig, queue, port, timer⟩ := h
  obtain ⟨a', b', c', d', trig', queue', port', timer'⟩ := h'
  refine ⟨a'.trans a, b'.trans b, c'.trans c, d'.trans d, fun n => ?_, fun q => ?_, fun p => ?_,
    fun k => ?_⟩
  · exact TrigEntry.SameSettings.trans (trig n) (trig' n)
  · exact Queue.SameConfig.trans (queue q) (queue' q)
  · obtain ⟨w, x, y, z⟩ := port p
    obtain ⟨w', x', y', z'⟩ := port' p
    exact ⟨w'.trans w, x'.trans x, y'.trans y, z'.trans z⟩
  · exact ⟨(timer' k).1.trans (timer k).1, (timer' k).2.trans (timer k).2⟩

/-- Nothing of the tables touched. -/
theorem SameTables.of_eq {s t : State} (desc : t.desc = s.desc) (pattern : t.pattern = s.pattern)
    (targets : t.targets = s.targets) (groups : t.groups = s.groups)
    (trig : ∀ n, t.trigger n = s.trigger n) (queues : ∀ q, t.queue q = s.queue q)
    (ports : ∀ p, (s.port p).SameSettings (t.port p))
    (timers : ∀ k, (t.timer k).reload = (s.timer k).reload ∧ (t.timer k).mode = (s.timer k).mode) :
    SameTables s t :=
  ⟨desc, pattern, targets, groups, fun n => by rw [trig],
    fun q => by rw [queues]; exact Queue.SameConfig.refl _, ports, timers⟩

theorem ConfigKept.refl (s : State) : ConfigKept s s :=
  ⟨.refl s, ⟨rfl, rfl⟩, rfl, rfl, fun _ => rfl⟩

theorem ConfigKept.trans {s t u : State} (h : ConfigKept s t) (h' : ConfigKept t u) :
    ConfigKept s u :=
  ⟨h.tables.trans h'.tables, ⟨h'.nctrl.1.trans h.nctrl.1, h'.nctrl.2.trans h.nctrl.2⟩,
    h'.tbdiv.trans h.tbdiv, h'.commandArg.trans h.commandArg,
    fun p => (h'.enable p).trans (h.enable p)⟩

/-- The tables' owners, the enables and the registers untouched. -/
theorem ConfigKept.of_frame {s t : State} (h : t = { s with
      mode := t.mode, stack := t.stack, claim := t.claim, irqSample := t.irqSample,
      tickDiv := t.tickDiv, clockCount := t.clockCount, timestamp := t.timestamp, lines := t.lines,
      tsLatch := t.tsLatch, timers := t.timers, ports := t.ports, tsel := t.tsel, tidx := t.tidx,
      rqsel := t.rqsel, headPtr := t.headPtr, fault := t.fault, laterFaults := t.laterFaults,
      dataOut := t.dataOut })
    (ports : ∀ p, (s.port p).SameSettings (t.port p) ∧ (t.port p).enable = (s.port p).enable)
    (timers : ∀ k, (t.timer k).reload = (s.timer k).reload ∧ (t.timer k).mode = (s.timer k).mode) :
    ConfigKept s t := by
  rw [h]
  exact ⟨.of_eq rfl rfl rfl rfl (fun _ => rfl) (fun _ => rfl) (fun p => (ports p).1) timers,
    ⟨rfl, rfl⟩, rfl, rfl, fun p => (ports p).2⟩

theorem Act.configKept {s t : State} (h : Act s t) : ConfigKept s t := by
  have frame {t : State} (h : t = { s with
      mode := t.mode, stack := t.stack, claim := t.claim, tsLatch := t.tsLatch, tsel := t.tsel,
      tidx := t.tidx, rqsel := t.rqsel, headPtr := t.headPtr, fault := t.fault,
      laterFaults := t.laterFaults, dataOut := t.dataOut }) : ConfigKept s t := by
    have hp : t.ports = s.ports := by rw [h]
    have ht : t.timers = s.timers := by rw [h]
    refine .of_frame (h.trans ?_) (fun p => ?_) (fun k => ?_)
    · rw [h]
    · rw [show t.port p = s.port p by simp only [State.port, hp]]
      exact ⟨.refl _, rfl⟩
    · rw [show t.timer k = s.timer k by simp only [State.timer, ht]]
      exact ⟨rfl, rfl⟩
  cases h with
  | engine h =>
    exact ⟨h.sameTables, ⟨by rw [h.frame], by rw [h.frame]⟩, by rw [h.frame], by rw [h.frame],
      fun p => (h.port p).2⟩
  | refused c =>
    refine frame ?_
    unfold refuse
    split <;> rfl
  | closed => exact frame rfl
  | clearedFault => exact frame rfl
  | bus m tsel tidx rqsel ptr out latch => exact frame rfl

end Sys2Proof.Machine
end

section
/-! The laws outside the run pool, which every step keeps: the configuration against all but the host's writes
(09 9.4), the memories and select lines (05 R84), the in-service stack (07 R138), the fault record (10 R182)
and the part-clock count (08 R153). -/

namespace Sys2Proof.Machine

-- The configuration (09 9.4)

theorem mapAll_timer (s : State) (f : Timer → Timer) (k : TimerId) :
    ({ s with timers := mapAll f s.timers } : State).timer k = f (s.timer k) :=
  mapAll_getElem f s.timers k

theorem passPort_sameSettings (s : State) (k : Nat) (P : PortRec) :
    P.SameSettings (passPort s k P) ∧ (passPort s k P).enable = P.enable := by
  rcases passPort_eq_self_or s k P with h | ⟨f, c, -, -, -, -, h⟩ <;> rw [h] <;> exact ⟨.refl _, rfl⟩

theorem tickPort_sameSettings (P : PortRec) :
    P.SameSettings (tickPort P) ∧ (tickPort P).enable = P.enable := by
  obtain ⟨i, h, -⟩ := tickPort_eq P
  rw [h]
  exact ⟨.refl _, rfl⟩

theorem tickTimer_sameSettings (T : Timer) :
    (tickTimer T).reload = T.reload ∧ (tickTimer T).mode = T.mode := by
  unfold tickTimer
  split <;> exact ⟨rfl, rfl⟩

theorem TimeAct.configKept {s t : State} (h : TimeAct s t) : ConfigKept s t := by
  cases h with
  | act h => exact h.configKept
  | passes k =>
    refine .of_frame rfl (fun p => ?_) fun _ => ⟨rfl, rfl⟩
    rw [passClocks_port, ← passPort_eq]
    exact passPort_sameSettings s k _
  | counts h => exact .of_frame rfl (fun _ => ⟨.refl _, rfl⟩) fun _ => ⟨rfl, rfl⟩
  | ticks =>
    refine .of_frame rfl (fun p => ?_) fun k => ?_
    · rw [show (takeTick s).port p = tickPort (s.port p) from mapAll_port s tickPort p]
      exact tickPort_sameSettings _
    · rw [show (takeTick s).timer k = tickTimer (s.timer k) from mapAll_timer s tickTimer k]
      exact tickTimer_sameSettings _

theorem TimeActs.configKept {s t : State} (h : TimeActs s t) : ConfigKept s t :=
  h.keeps .refl .trans TimeAct.configKept

theorem engineReset_sameTables (s : State) : SameTables s (engineReset s) := by
  refine ⟨rfl, rfl, rfl, rfl, fun n => ?_, fun q => ?_, fun p => ?_, fun k => ?_⟩
  · rw [engineReset_trigger]; rfl
  · rw [engineReset_queue]; exact Queue.SameConfig.refl _
  · rw [engineReset_port]; exact ⟨rfl, rfl, rfl, rfl⟩
  · rw [show (engineReset s).timer k = _ from mapAll_timer s _ k]
    exact ⟨rfl, rfl⟩

/-- The commands after which tables, enables and configuration registers all stand as they were. -/
def keepsConfig : Instr → Bool
  | .tdataWrite _ | .nctrlWrite _ | .registerWrite .tbdiv _ | .registerWrite .commandArg _
  | .startUpEnd | .engineReset | .portReset _ => false
  | _ => true

theorem hostWrite_configKept {f : State → State} (h : ∀ s, ConfigKept s (f s)) (s : State) :
    ConfigKept s (hostWrite f s) := by
  unfold hostWrite
  split
  · exact (Act.closed s).configKept.trans (h _)
  · exact .refl s

theorem ConfigKept.stack (s : State) (l : List StackEntry) : ConfigKept s { s with stack := l } :=
  .of_frame rfl (fun _ => ⟨.refl _, rfl⟩) fun _ => ⟨rfl, rfl⟩

theorem ConfigKept.claim (s : State) (l : List StackEntry) (c : ClaimCycle) (b : Byte) :
    ConfigKept s { s with stack := l, claim := c, dataOut := b } :=
  .of_frame rfl (fun _ => ⟨.refl _, rfl⟩) fun _ => ⟨rfl, rfl⟩

theorem claimEdge_configKept (s : State) : ConfigKept s (claimEdge s) := by
  unfold claimEdge
  split
  · exact .refl s
  · exact .claim s s.stack .closed s.dataOut
  · exact .claim s _ .closed s.dataOut

theorem claimStart_configKept (s : State) : ConfigKept s (claimStart s) :=
  .claim s s.stack _ _

theorem endService_configKept (v : Byte) (s : State) : ConfigKept s (endService v s) := by
  unfold endService
  split
  · exact (Act.refused s _).configKept
  · split
    · exact (Act.refused s _).configKept
    · split
      · exact .stack s _
      · exact (Act.refused s _).configKept

theorem hostRead_configKept {f : State → State} (h : ∀ s, ConfigKept s (f s)) (s : State) :
    ConfigKept s (hostRead f s) := by
  unfold hostRead
  split
  · exact (Act.closed s).configKept.trans (h _)
  · exact .claim s s.stack s.claim 0

/-- Every command but those of `keepsConfig` keeps the configuration. -/
theorem exec_configKept {c : Instr} {s t : State} (h : exec c s = .next t)
    (hc : keepsConfig c = true) : ConfigKept s t := by
  by_cases ha : setApart c = true
  · cases c with
    | tdataWrite | nctrlWrite | startUpEnd | engineReset | portReset => simp [keepsConfig] at hc
    | tick => exact (tick_acts h).configKept
    | portAbort k => exact (portAbort_acts h).1.configKept
    | registerWrite reg v =>
      obtain rfl := Host.Outcome.next.inj h
      refine hostWrite_configKept (f := storeRegister reg v) (fun s => ?_) s
      cases reg with
      | commandArg | tbdiv => simp [keepsConfig] at hc
      | tidxLo | tidxHi => exact .of_frame rfl (fun _ => ⟨.refl _, rfl⟩) fun _ => ⟨rfl, rfl⟩
    | nendWrite v =>
      obtain rfl := Host.Outcome.next.inj h
      exact hostWrite_configKept (endService_configKept v) s
    | nclaimRead part =>
      cases part <;> obtain rfl := Host.Outcome.next.inj h
      · exact hostRead_configKept
          (fun s => (claimStart_configKept s).trans (claimEdge_configKept _)) s
      · exact hostRead_configKept claimStart_configKept s
      · unfold whenRunning
        split
        · exact claimEdge_configKept s
        · exact .refl s
    | _ => simp [setApart] at ha
  · exact (exec_acts h (Bool.eq_false_iff.2 ha)).time.configKept

/-- A register of the configuration written, all else of it kept. -/
theorem hostWrite_sameTables {f : State → State} (s : State) (h : ∀ s, SameTables s (f s)) :
    SameTables s (hostWrite f s) := by
  unfold hostWrite
  split
  · exact (Act.closed s).configKept.tables.trans (h _)
  · exact .refl s

/-- Settles O17: the set-apart commands write their own registers, and all others keep the configuration. -/
theorem onlyHostWritesChangeConfiguration : Obligations.OnlyHostWritesChangeConfiguration := by
  intro c s t h hstart
  by_cases hc : keepsConfig c = true
  · obtain ⟨ht, hn, hb, ha, he⟩ := exec_configKept h hc
    exact ⟨fun _ => ht, fun _ => hn, fun _ => hb, fun _ => ha, fun _ _ _ => he⟩
  · cases c with
    | tdataWrite v =>
      obtain ⟨hn, hl, hb, ha, -⟩ := tdataWrite_keeps h
      exact ⟨fun e => absurd rfl (e v), fun _ => ⟨hn, hl⟩, fun _ => hb, fun _ => ha,
        fun e => absurd rfl (e v)⟩
    | nctrlWrite v =>
      obtain rfl := Host.Outcome.next.inj h
      refine ⟨fun _ => hostWrite_sameTables s fun _ => ?_, fun e => absurd rfl (e v), fun _ => ?_,
        fun _ => ?_, fun _ _ _ p => ?_⟩
      · exact .of_eq rfl rfl rfl rfl (fun _ => rfl) (fun _ => rfl) (fun _ => .refl _)
          fun _ => ⟨rfl, rfl⟩
      all_goals unfold hostWrite; split <;> rfl
    | registerWrite reg v =>
      obtain rfl := Host.Outcome.next.inj h
      have tables : SameTables s (hostWrite (storeRegister reg v) s) :=
        hostWrite_sameTables s fun _ => by
          cases reg <;> exact .of_eq rfl rfl rfl rfl (fun _ => rfl) (fun _ => rfl)
            (fun _ => .refl _) fun _ => ⟨rfl, rfl⟩
      have enable (p : Port) :
          ((hostWrite (storeRegister reg v) s).port p).enable = (s.port p).enable := by
        unfold hostWrite
        split
        · cases reg <;> rfl
        · rfl
      have nctrl : (hostWrite (storeRegister reg v) s).nen = s.nen
          ∧ (hostWrite (storeRegister reg v) s).nlow = s.nlow := by
        unfold hostWrite
        split
        · cases reg <;> exact ⟨rfl, rfl⟩
        · exact ⟨rfl, rfl⟩
      cases reg with
      | tidxLo | tidxHi => simp [keepsConfig] at hc
      | commandArg =>
        refine ⟨fun _ => tables, fun _ => nctrl, fun _ => ?_, fun e => absurd rfl (e v),
          fun _ _ _ => enable⟩
        unfold hostWrite
        split <;> rfl
      | tbdiv =>
        refine ⟨fun _ => tables, fun _ => nctrl, fun e => absurd rfl (e v), fun _ => ?_,
          fun _ _ _ => enable⟩
        unfold hostWrite
        split <;> rfl
    | startUpEnd => exact absurd rfl hstart
    | engineReset =>
      obtain rfl := Host.Outcome.next.inj h
      refine ⟨fun _ => hostWrite_sameTables s engineReset_sameTables, fun _ => ?_, fun _ => ?_,
        fun _ => ?_, fun _ _ e => absurd rfl e⟩
      · unfold hostWrite
        split <;> exact ⟨rfl, rfl⟩
      · unfold hostWrite
        split <;> rfl
      · unfold hostWrite
        split <;> rfl
    | portReset k =>
      obtain ⟨u, hu, -, rfl | ⟨p, P, hP, rfl⟩⟩ := portReset_acts h
      · obtain ⟨ht, hn, hb, ha, -⟩ := hu.configKept
        exact ⟨fun _ => ht, fun _ => hn, fun _ => hb, fun _ => ha, fun _ e => absurd rfl (e k)⟩
      · obtain ⟨ht, hn, hb, ha, -⟩ := hu.configKept
        refine ⟨fun _ => ht.trans (.of_eq rfl rfl rfl rfl (fun _ => rfl) (fun _ => rfl) (fun x => ?_)
          fun _ => ⟨rfl, rfl⟩), fun _ => hn, fun _ => hb, fun _ => ha, fun _ e => absurd rfl (e k)⟩
        rw [State.setPort_port]
        split
        · next e => exact e ▸ hP
        · exact .refl _
    | _ => simp [keepsConfig] at hc

end Sys2Proof.Machine
end

section
/-! The laws of the memories and select lines (05 R84), the in-service stack (07 R138), the fault record (10
R182) and the part-clock count (08 R153), which every step keeps. -/

namespace Sys2Proof.Machine

-- Memories and select lines

/-- The target table canonical, with no two enabled targets on one select line. -/
def TargetsDistinct (s : State) : Prop := Memory.wf s.targets = true ∧ SelectsDistinct s

theorem TargetsDistinct.of_eq {s t : State} (h : TargetsDistinct s) (e : t.targets = s.targets) :
    TargetsDistinct t := by
  unfold TargetsDistinct SelectsDistinct at h ⊢
  rw [e]
  exact h

theorem targetByte_memWrite {m : Mem} {i : Nat} (v : Byte) (hm : Memory.wf m = true) (hi : i < 64) :
    targetByte (memWrite m i v) (Fin.ofNat 8 (i / 8)) 0 =
      if i % 8 = 0 then v else targetByte m (Fin.ofNat 8 (i / 8)) 0 := by
  have he : 8 * (Fin.ofNat 8 (i / 8)).val + 0 = i ↔ i % 8 = 0 := by
    simp only [Fin.val_ofNat]
    omega
  unfold targetByte
  rw [memRead_memWrite _ _ v hm]
  simp only [he]

/-- A target byte stored, its port and select line free where it enables the entry (R84). -/
theorem TargetsDistinct.write {s : State} (h : TargetsDistinct s) {i : Nat} {v : Byte} (hi : i < 64)
    (distinct : i % 8 = 0 → bitOf v 0 = true → selectTaken s.targets (Fin.ofNat 8 (i / 8))
      (Fin.ofNat 4 (bitsOf v 1 2)) (bitOf v 3) = false) :
    TargetsDistinct { s with targets := memWrite s.targets i v } := by
  obtain ⟨hw, hd⟩ := h
  refine ⟨memWrite_wf i v hw, ?_⟩
  have other {u : TargetId} (hu : u ≠ Fin.ofNat 8 (i / 8)) :
      targetByte (memWrite s.targets i v) u 0 = targetByte s.targets u 0 :=
    targetByte_memWrite_of_ne v hw hi hu (by decide)
  have own := targetByte_memWrite v hw hi
  -- The entry written against another enabled one.
  have key (u : TargetId) (hu : u ≠ Fin.ofNat 8 (i / 8))
      (he : targetEnable (memWrite s.targets i v) (Fin.ofNat 8 (i / 8)) = true)
      (heu : targetEnable (memWrite s.targets i v) u = true) :
      ¬(targetPort (memWrite s.targets i v) (Fin.ofNat 8 (i / 8)) =
          targetPort (memWrite s.targets i v) u
        ∧ targetSelect (memWrite s.targets i v) (Fin.ofNat 8 (i / 8)) =
          targetSelect (memWrite s.targets i v) u) := by
    simp only [targetEnable, targetPort, targetSelect, other hu, own] at he heu ⊢
    by_cases hk : i % 8 = 0
    · simp only [hk, if_true] at he ⊢
      have hfree := distinct hk he
      simp only [selectTaken, List.any_eq_false, Bool.and_eq_true, bne_iff_ne, beq_iff_eq] at hfree
      rintro ⟨hp, hs⟩
      exact hfree u (List.mem_finRange u) ⟨⟨⟨hu, heu⟩, hp.symm⟩, hs.symm⟩
    · simp only [hk, if_false] at he ⊢
      exact hd _ u (Ne.symm hu) he heu
  intro a b hab ha hb
  by_cases h1 : a = Fin.ofNat 8 (i / 8)
  · subst h1
    exact key b (Ne.symm hab) ha hb
  · by_cases h2 : b = Fin.ofNat 8 (i / 8)
    · subst h2
      rintro ⟨hp, hs⟩
      exact key a hab hb ha ⟨hp.symm, hs.symm⟩
    · change targetEnable (memWrite s.targets i v) a = true at ha
      change targetEnable (memWrite s.targets i v) b = true at hb
      change ¬(targetPort (memWrite s.targets i v) a = targetPort (memWrite s.targets i v) b
        ∧ targetSelect (memWrite s.targets i v) a = targetSelect (memWrite s.targets i v) b)
      simp only [targetEnable, targetPort, targetSelect, other h1, other h2] at ha hb ⊢
      exact hd a b hab ha hb

theorem Setting.targetsDistinct {led : Port → Bool} {s t : State} (h : Setting led s t)
    (hs : TargetsDistinct s) : TargetsDistinct t := by
  cases h with
  | outside t hc => exact hs.of_eq hc.targets
  | passes t k hc => exact hs.of_eq hc.targets
  | ticks t hc => exact hs.of_eq hc.targets
  | entry | queue | quota | port => exact hs
  | target i v bound off distinct => exact hs.write bound distinct

theorem step_targetsDistinct {s t : State} (h : step s = .next t) (hs : TargetsDistinct s) :
    TargetsDistinct t := by
  refine step_keeps (A := fun _ => True) h trivial hs (fun s t hc _ hi => ⟨trivial, ?_⟩)
    (fun s _ hi => hi) (fun s => ⟨rfl, fun a b _ ha => ?_⟩) fun p s _ hi => ?_
  · exact hc.keeps (fun hm hi => hi.of_eq hm.targets) Setting.targetsDistinct hi
  · have hb (k : TargetId) : targetEnable (startedUp s).targets k = false := by
      simp only [startedUp_targets, targetEnable, targetByte, memRead]
      decide
    exact absurd ha (by rw [hb a]; simp)
  · obtain ⟨u, P, hu, -, he⟩ := resetPortCmd_keeps_tables p s
    exact hi.of_eq (by rw [he, State.setPort_targets, hu.frame])

/-- Descriptor store and pattern memory canonical. -/
def StoresCanonical (s : State) : Prop := Memory.wf s.desc = true ∧ Memory.wf s.pattern = true

theorem StoresCanonical.of_eq {s t : State} (h : StoresCanonical s) (hd : t.desc = s.desc)
    (hp : t.pattern = s.pattern) : StoresCanonical t := by
  unfold StoresCanonical
  rw [hd, hp]
  exact h

theorem Written.stores {s t : State} (h : Written s t) (hs : StoresCanonical s) :
    StoresCanonical t := by
  cases h with
  | desc i v => exact ⟨memWrite_wf i v hs.1, hs.2⟩
  | pattern i v => exact ⟨hs.1, memWrite_wf i v hs.2⟩
  | table h => exact hs.of_eq (by rw [h]) (by rw [h])
  | refused c =>
    unfold refuse
    split <;> exact hs

theorem exec_stores {c : Instr} {s t : State} (h : exec c s = .next t) (hs : StoresCanonical s) :
    StoresCanonical t := by
  by_cases hstart : c = .startUpEnd
  · subst hstart
    obtain rfl := Host.Outcome.next.inj h
    split
    · exact ⟨rfl, rfl⟩
    · exact hs
  by_cases hw : ∃ v, c = .tdataWrite v
  · obtain ⟨v, rfl⟩ := hw
    obtain rfl := Host.Outcome.next.inj h
    unfold hostWrite
    split
    · obtain ⟨u, hu, he⟩ := writeTdata_written v { s with claim := .closed }
      rw [he]
      exact StoresCanonical.of_eq (hu.stores hs) rfl rfl
    · exact hs
  · obtain ⟨hd, hp, -⟩ := (onlyHostWritesChangeConfiguration c s t h hstart).1 (not_exists.1 hw)
    exact hs.of_eq hd hp

theorem step_stores {s t : State} (h : step s = .next t) (hs : StoresCanonical s) :
    StoresCanonical t := by
  unfold step at h
  split at h
  · obtain rfl := Host.Outcome.next.inj h
    obtain ⟨hd, hp, -⟩ := (whenRunning_time partClock_acts s).configKept.tables
    exact hs.of_eq hd hp
  · exact exec_stores h hs

/-- Settles O51: writes of the stores and the target table keep their form, and a target entry is enabled only
where no other has its port and select line. -/
theorem stepKeepsMemoriesAndSelects : Obligations.StepKeepsMemoriesAndSelects := by
  intro s t ⟨hd, hp, hw⟩ hs h
  obtain ⟨hw', hs'⟩ := step_targetsDistinct h ⟨hw, hs⟩
  obtain ⟨hd', hp'⟩ := step_stores h ⟨hd, hp⟩
  exact ⟨⟨hd', hp', hw'⟩, hs'⟩

-- The in-service stack

/-- The stack, with the claim cycle as it was or closed. -/
def StackKept (s t : State) : Prop := t.stack = s.stack ∧ (t.claim = s.claim ∨ t.claim = .closed)

theorem StackKept.refl (s : State) : StackKept s s := ⟨rfl, .inl rfl⟩

theorem StackKept.trans {s t u : State} (h : StackKept s t) (h' : StackKept t u) : StackKept s u :=
  ⟨h'.1.trans h.1, h'.2.elim (fun e => e ▸ h.2) .inr⟩

theorem StackKept.legal {s t : State} (h : StackKept s t) (hs : StackLegal s) : StackLegal t := by
  refine ⟨by rw [h.1]; exact hs.1, fun e he => ?_⟩
  rw [h.1]
  rcases h.2 with hc | hc
  · exact hs.2 e (hc ▸ he)
  · simp [hc] at he

theorem Act.stackKept {s t : State} (h : Act s t) : StackKept s t := by
  cases h with
  | engine h => exact ⟨by rw [h.frame], .inl (by rw [h.frame])⟩
  | refused c =>
    unfold refuse
    split <;> exact ⟨rfl, .inl rfl⟩
  | closed => exact ⟨rfl, .inr rfl⟩
  | clearedFault | bus => exact ⟨rfl, .inl rfl⟩

theorem TimeActs.stackKept {s t : State} (h : TimeActs s t) : StackKept s t :=
  h.keeps .refl .trans fun h => by
    cases h with
    | act h => exact h.stackKept
    | passes | counts | ticks => exact ⟨rfl, .inl rfl⟩

/-- The group that an NCLAIM read claims goes on the stack (07 R138, R140). -/
theorem stackShape_bestEntry {s : State} (h : stackShape s.stack = true) {e : StackEntry}
    (he : bestEntry s = some e) : stackShape (e :: s.stack) = true := by
  obtain ⟨g, hg, rfl⟩ := Option.map_eq_some_iff.1 he
  have hc := ((bestClaimable_eq_some_iff s g).1 hg).1
  simp only [claimable, inService, highInService, Bool.and_eq_true, Bool.not_eq_true'] at hc
  obtain ⟨⟨⟨-, hout⟩, -⟩, htier⟩ := hc
  cases hst : s.stack with
  | nil => rfl
  | cons x l =>
    rw [hst] at h hout htier
    cases hgt : (s.group g).tier with
    | low => simp [hgt] at htier
    | high =>
      simp only [hgt, Bool.not_eq_true', List.any_eq_false, List.mem_cons, beq_iff_eq] at htier
      have hx : x.tier = .low := by
        cases hxt : x.tier with
        | low => rfl
        | high => exact absurd hxt (htier x (.inl rfl))
      cases l with
      | nil =>
        have hne : g ≠ x.group := by
          simp only [List.any_cons, List.any_nil, Bool.or_false, beq_eq_false_iff_ne] at hout
          exact Ne.symm hout
        simp [stackShape, hx, hne]
      | cons y l =>
        cases l with
        | nil => simp [stackShape, hx] at h
        | cons z l => simp [stackShape] at h

theorem stackShape_tail {e : StackEntry} {l : List StackEntry} (h : stackShape (e :: l) = true) :
    stackShape l = true := by
  cases l with
  | nil => rfl
  | cons x l =>
    cases l with
    | nil => rfl
    | cons y l => simp [stackShape] at h

theorem claimStart_legal {s : State} (h : StackLegal s) : StackLegal (claimStart s) := by
  refine ⟨h.1, fun e he => ?_⟩
  have hb : bestEntry s = some e := by simpa [claimStart] using he
  exact stackShape_bestEntry h.1 hb

theorem claimEdge_legal {s : State} (h : StackLegal s) : StackLegal (claimEdge s) := by
  unfold claimEdge
  split
  · exact h
  · exact ⟨h.1, fun e he => by simp at he⟩
  · next e hc => exact ⟨h.2 e hc, fun e he => by simp at he⟩

theorem endService_legal (v : Byte) {s : State} (hc : s.claim = .closed) (h : StackLegal s) :
    StackLegal (endService v s) := by
  have refused (c : FaultCode) : StackLegal (refuse c s) := (Act.refused s c).stackKept.legal h
  unfold endService
  split
  · exact refused _
  · split
    · exact refused _
    · next e rest hst =>
      split
      · exact ⟨stackShape_tail (hst ▸ h.1), fun x hx => by simp [hc] at hx⟩
      · exact refused _

theorem closed_legal {s : State} (h : StackLegal s) : StackLegal { s with claim := .closed } :=
  (Act.closed s).stackKept.legal h

theorem hostWrite_legal {f : State → State} {s : State}
    (h : ∀ u, u.claim = .closed → StackLegal u → StackLegal (f u)) (hs : StackLegal s) :
    StackLegal (hostWrite f s) := by
  unfold hostWrite
  split
  · exact h _ rfl (closed_legal hs)
  · exact hs

theorem hostRead_legal {f : State → State} {s : State} (h : ∀ u, StackLegal u → StackLegal (f u))
    (hs : StackLegal s) : StackLegal (hostRead f s) := by
  unfold hostRead
  split
  · exact h _ (closed_legal hs)
  · exact hs

theorem exec_stackLegal {c : Instr} {s t : State} (h : exec c s = .next t) (hs : StackLegal s) :
    StackLegal t := by
  by_cases ha : setApart c = true
  · cases c with
    | tick => exact (tick_acts h).stackKept.legal hs
    | portAbort k => exact (portAbort_acts h).1.stackKept.legal hs
    | portReset k =>
      obtain ⟨u, hu, -, rfl | ⟨p, P, -, rfl⟩⟩ := portReset_acts h
      · exact hu.stackKept.legal hs
      · exact hu.stackKept.legal hs
    | tdataWrite v =>
      obtain ⟨-, -, -, -, hst, hc, -⟩ := tdataWrite_keeps h
      exact StackKept.legal ⟨hst, hc⟩ hs
    | nctrlWrite v =>
      obtain rfl := Host.Outcome.next.inj h
      exact hostWrite_legal (f := writeNctrl v) (fun _ _ hu => hu) hs
    | registerWrite reg v =>
      obtain rfl := Host.Outcome.next.inj h
      exact hostWrite_legal (f := storeRegister reg v) (fun _ _ hu => by cases reg <;> exact hu) hs
    | nclaimRead part =>
      cases part <;> obtain rfl := Host.Outcome.next.inj h
      · exact hostRead_legal (fun _ hu => claimEdge_legal (claimStart_legal hu)) hs
      · exact hostRead_legal (fun _ => claimStart_legal) hs
      · unfold whenRunning
        split
        · exact claimEdge_legal hs
        · exact hs
    | nendWrite v =>
      obtain rfl := Host.Outcome.next.inj h
      exact hostWrite_legal (fun _ hc hu => endService_legal v hc hu) hs
    | startUpEnd =>
      obtain rfl := Host.Outcome.next.inj h
      split
      · exact ⟨rfl, fun e he => by simp at he⟩
      · exact hs
    | engineReset =>
      obtain rfl := Host.Outcome.next.inj h
      exact hostWrite_legal (f := engineReset) (fun u hc _ => ⟨rfl, fun e he => by
        rw [show (engineReset u).claim = u.claim from rfl, hc] at he
        simp at he⟩) hs
    | _ => simp [setApart] at ha
  · exact (exec_acts h (Bool.eq_false_iff.2 ha)).time.stackKept.legal hs

/-- Settles O53: a claim pushes a group that 07 R140 lets above the entries that stand, and an NEND pops. -/
theorem stepKeepsStackLegal : Obligations.StepKeepsStackLegal := by
  intro s t hs h
  unfold step at h
  split at h
  · obtain rfl := Host.Outcome.next.inj h
    exact (whenRunning_time partClock_acts s).stackKept.legal hs
  · exact exec_stackLegal h hs

-- The fault record and the part-clock count

/-- The laws of the fault record and of the part-clock count are kept. -/
def RecordKept (s t : State) : Prop :=
  (FaultRecordCoherent s → FaultRecordCoherent t) ∧ (ClockWithinTick s → ClockWithinTick t)

theorem RecordKept.refl (s : State) : RecordKept s s := ⟨id, id⟩

theorem RecordKept.trans {s t u : State} (h : RecordKept s t) (h' : RecordKept t u) :
    RecordKept s u := ⟨h'.1 ∘ h.1, h'.2 ∘ h.2⟩

/-- Fault record and part-clock count untouched. -/
theorem RecordKept.of_eq {s t : State} (fault : t.fault = s.fault)
    (later : t.laterFaults = s.laterFaults) (count : t.clockCount = s.clockCount)
    (div : t.tickDiv = s.tickDiv) : RecordKept s t := by
  refine ⟨fun hs hf => ?_, fun hs => ?_⟩
  · rw [later]; exact hs (fault ▸ hf)
  · unfold ClockWithinTick at hs ⊢
    rw [count, div]
    exact hs

/-- A refusal sets the code of a first fault, or counts a later one (09 R173). -/
theorem refuse_recordKept (c : FaultCode) (s : State) : RecordKept s (refuse c s) := by
  unfold refuse
  split
  · next h => exact ⟨fun hs _ => hs h, id⟩
  · next h => exact ⟨fun _ hf => absurd hf h, id⟩

theorem TimeAct.recordKept {s t : State} (h : TimeAct s t) : RecordKept s t := by
  cases h with
  | act h =>
    cases h with
    | engine h => exact .of_eq (by rw [h.frame]) (by rw [h.frame]) (by rw [h.frame]) (by rw [h.frame])
    | refused c => exact refuse_recordKept c s
    | closed | bus => exact .of_eq rfl rfl rfl rfl
    | clearedFault => exact ⟨fun _ _ => rfl, id⟩
  | passes k => exact .of_eq rfl rfl rfl rfl
  | counts h => exact ⟨id, fun _ => h⟩
  | ticks => exact ⟨id, fun _ => Nat.zero_le _⟩

theorem TimeActs.recordKept {s t : State} (h : TimeActs s t) : RecordKept s t :=
  h.keeps .refl .trans TimeAct.recordKept

theorem hostWrite_recordKept {f : State → State} (h : ∀ s, RecordKept s (f s)) (s : State) :
    RecordKept s (hostWrite f s) := by
  unfold hostWrite
  split
  · exact (TimeAct.act (Act.closed s)).recordKept.trans (h _)
  · exact .refl s

theorem hostRead_recordKept {f : State → State} (h : ∀ s, RecordKept s (f s)) (s : State) :
    RecordKept s (hostRead f s) := by
  unfold hostRead
  split
  · exact (TimeAct.act (Act.closed s)).recordKept.trans (h _)
  · exact .of_eq rfl rfl rfl rfl

theorem claimEdge_recordKept (s : State) : RecordKept s (claimEdge s) := by
  unfold claimEdge
  split <;> exact .of_eq rfl rfl rfl rfl

theorem endService_recordKept (v : Byte) (s : State) : RecordKept s (endService v s) := by
  unfold endService
  split
  · exact refuse_recordKept _ s
  · split
    · exact refuse_recordKept _ s
    · split
      · exact .of_eq rfl rfl rfl rfl
      · exact refuse_recordKept _ s

theorem writeTdata_recordKept (v : Byte) (s : State) : RecordKept s (writeTdata v s) := by
  obtain ⟨u, hu, he⟩ := writeTdata_written v s
  rw [he]
  refine RecordKept.trans (t := u) ?_ (.of_eq rfl rfl rfl rfl)
  cases hu with
  | desc | pattern => exact .of_eq rfl rfl rfl rfl
  | table h => exact .of_eq (by rw [h]) (by rw [h]) (by rw [h]) (by rw [h])
  | refused c => exact refuse_recordKept c s

theorem exec_recordKept {c : Instr} {s t : State} (h : exec c s = .next t) : RecordKept s t := by
  by_cases ha : setApart c = true
  · cases c with
    | tick => exact (tick_acts h).recordKept
    | portAbort k => exact (portAbort_acts h).1.recordKept
    | portReset k =>
      obtain ⟨u, hu, -, rfl | ⟨p, P, -, rfl⟩⟩ := portReset_acts h
      · exact hu.recordKept
      · exact hu.recordKept.trans (.of_eq rfl rfl rfl rfl)
    | tdataWrite v =>
      obtain rfl := Host.Outcome.next.inj h
      exact hostWrite_recordKept (writeTdata_recordKept v) s
    | nctrlWrite v =>
      obtain rfl := Host.Outcome.next.inj h
      exact hostWrite_recordKept (f := writeNctrl v) (fun _ => .of_eq rfl rfl rfl rfl) s
    | registerWrite reg v =>
      obtain rfl := Host.Outcome.next.inj h
      exact hostWrite_recordKept (f := storeRegister reg v)
        (fun _ => by cases reg <;> exact .of_eq rfl rfl rfl rfl) s
    | nclaimRead part =>
      cases part <;> obtain rfl := Host.Outcome.next.inj h
      · exact hostRead_recordKept (f := fun t => claimEdge (claimStart t))
          (fun s => RecordKept.trans (t := claimStart s) (.of_eq rfl rfl rfl rfl)
            (claimEdge_recordKept _)) s
      · exact hostRead_recordKept (f := claimStart) (fun _ => .of_eq rfl rfl rfl rfl) s
      · unfold whenRunning
        split
        · exact claimEdge_recordKept s
        · exact .refl s
    | nendWrite v =>
      obtain rfl := Host.Outcome.next.inj h
      exact hostWrite_recordKept (endService_recordKept v) s
    | startUpEnd =>
      obtain rfl := Host.Outcome.next.inj h
      split
      · exact ⟨fun _ _ => rfl, fun _ => Nat.zero_le _⟩
      · exact .refl s
    | engineReset =>
      obtain rfl := Host.Outcome.next.inj h
      exact hostWrite_recordKept (f := engineReset) (fun _ => ⟨fun _ _ => rfl, fun _ => Nat.zero_le _⟩) s
    | _ => simp [setApart] at ha
  · exact (exec_acts h (Bool.eq_false_iff.2 ha)).time.recordKept

/-- Settles O54: captures by the moves, the fault record by the refusals, the part-clock count by the part
clocks and ticks. -/
theorem stepKeepsCapturesFaultRecordAndClock : Obligations.StepKeepsCapturesFaultRecordAndClock := by
  intro s t h
  refine ⟨step_captures h, ?_⟩
  unfold step at h
  split at h
  · obtain rfl := Host.Outcome.next.inj h
    exact (whenRunning_time partClock_acts s).recordKept
  · have hkept := exec_recordKept h
    exact hkept

end Sys2Proof.Machine
end

section
/-! Commands and resets: the front command (5.1), device and engine reset (09 9.4, 9.6), refused accesses (09
9.5), the registers that only store, and the laws at reset. -/

namespace Sys2Proof.Machine

/-- Settles O1. -/
theorem stepRunsFrontCommand : Obligations.StepRunsFrontCommand := by
  intro c rest s h
  rw [step, h]

/-- A host write taken on a free bus. -/
theorem next_hostWrite_of_busFree {s : State} (f : State → State) (free : BusFree s) :
    (Host.Outcome.next (hostWrite f s) : Host.Outcome State Fault Refusal) = .next (f s) :=
  congrArg Host.Outcome.next (hostWrite_of_busFree f free)

theorem next_hostRead_of_busFree {s : State} (f : State → State) (free : BusFree s) :
    (Host.Outcome.next (hostRead f s) : Host.Outcome State Fault Refusal) = .next (f s) :=
  congrArg Host.Outcome.next (hostRead_of_busFree f free)

theorem next_whenRunning_of_busFree {s : State} (f : State → State) (free : BusFree s) :
    (Host.Outcome.next (whenRunning f s) : Host.Outcome State Fault Refusal) = .next (f s) :=
  congrArg Host.Outcome.next (whenRunning_of_running f free.1)

-- Device reset and start-up

theorem mapAll_line (s : State) (f : Line → Line) (n : LineId) :
    ({ s with lines := mapAll f s.lines } : State).line n = f (s.line n) :=
  mapAll_getElem f s.lines n

theorem startedUp_line (s : State) (n : LineId) :
    (startedUp s).line n = { pin := (s.line n).pin, ref := (s.line n).pin, holdOff := none } :=
  mapAll_getElem _ s.lines n

/-- Settles O2: the three commands of the sequence are their meanings. -/
theorem resetSequenceReachesReset : Obligations.ResetSequenceReachesReset := fun s =>
  ⟨rfl, fun h => congrArg Host.Outcome.next (if_pos h), fun h => congrArg Host.Outcome.next (if_neg h),
    fun h => ⟨startedUp s, exec_startUpEnd_of_startUp h, rfl, startedUp_line s⟩⟩

/-- The reads of registers with a side effect, a whole NCLAIM cycle or its start among them. -/
def drivesData : Instr → Bool
  | .tdataRead | .rqheadRead | .tstampLoRead | .nclaimRead .whole | .nclaimRead .start => true
  | _ => false

theorem mem_reads_iff (c : Instr) :
    c ∈ [Instr.tdataRead, .rqheadRead, .tstampLoRead, .nclaimRead .whole, .nclaimRead .start] ↔
      drivesData c = true := by
  cases c with
  | nclaimRead part => cases part <;> simp [drivesData]
  | _ => simp [drivesData]

section
variable {s : State}

theorem next_hostWrite_of_not_running (f : State → State) (h : s.mode ≠ .running) :
    (Host.Outcome.next (hostWrite f s) : Host.Outcome State Fault Refusal) = .next s :=
  congrArg Host.Outcome.next (hostWrite_of_not_running f h)

theorem next_whenRunning_of_not_running (f : State → State) (h : s.mode ≠ .running) :
    (Host.Outcome.next (whenRunning f s) : Host.Outcome State Fault Refusal) = .next s :=
  congrArg Host.Outcome.next (whenRunning_of_not_running f h)

theorem next_hostRead_of_not_running (f : State → State) (h : s.mode ≠ .running) :
    (Host.Outcome.next (hostRead f s) : Host.Outcome State Fault Refusal) =
      .next { s with dataOut := 0 } :=
  congrArg Host.Outcome.next (hostRead_of_not_running f h)

/-- During RESET# and start-up a command that is neither of the sequence, nor a line's edge, nor such a read
does nothing. -/
theorem exec_of_not_running {c : Instr} (hwf : c.wf = true) (h : s.mode ≠ .running)
    (hseq : c ∉ [Instr.deviceReset, .resetRelease, .startUpEnd])
    (hline : ∀ n level, c ≠ .triggerLineEdge n level) :
    exec c s = .next (if drivesData c = true then { s with dataOut := 0 } else s) := by
  have twice (f g : State → State) :
      (Host.Outcome.next (hostWrite f (whenRunning g s)) : Host.Outcome State Fault Refusal) =
        .next s := by
    rw [whenRunning_of_not_running g h, hostWrite_of_not_running f h]
  cases c with
  | deviceReset | resetRelease | startUpEnd => simp at hseq
  | triggerLineEdge n level => exact absurd rfl (hline n level)
  | badCommand code =>
    have hcode : assignedCodes.contains code = false := by simpa [Instr.wf] using hwf
    change execBadCommand code s = _
    rw [execBadCommand, hcode]
    exact next_hostWrite_of_not_running _ h
  | nclaimRead part =>
    cases part
    · exact next_hostRead_of_not_running _ h
    · exact next_hostRead_of_not_running _ h
    · exact next_whenRunning_of_not_running _ h
  | tdataRead | rqheadRead | tstampLoRead => exact next_hostRead_of_not_running _ h
  | tick | holdOffExpiry | intervalTimerExpiry | frameEnd | readyArrival | readyTimeoutExpiry
  | gapExpiry | cutByteEnd | transmitByteBegins | receiveByteSampled =>
    exact next_whenRunning_of_not_running _ h
  | portReset k => exact twice _ _
  | portAbort k => exact twice _ _
  | _ => exact next_hostWrite_of_not_running _ h

/-- A line's edge during RESET# and start-up moves its pin alone (log 18). -/
theorem exec_lineEdge_of_not_running (n : LineId) (level : Bool) (h : s.mode ≠ .running) :
    exec (.triggerLineEdge n level) s = .next (s.setLine n { s.line n with pin := level }) :=
  next_whenRunning_of_not_running (lineSees n level) (s := s.setLine n { s.line n with pin := level })
    h

end

/-- Settles O3: the gates of `exec` for a part that does not run, and the line's pin. -/
theorem resetIgnoresEveryOtherCommand : Obligations.ResetIgnoresEveryOtherCommand := by
  intro c s hwf h hseq
  refine ⟨?_, fun a => by rw [readRegister, if_pos h]⟩
  by_cases hline : ∃ n level, c = .triggerLineEdge n level
  · obtain ⟨n, level, rfl⟩ := hline
    refine ⟨_, exec_lineEdge_of_not_running n level h, rfl, ?_, fun m => ?_, fun m hm => ?_, ?_⟩
    · rw [if_neg (by simp)]
      rfl
    · by_cases e : m = n
      · subst e; simp
      · simp [State.setLine_line, e]
    · exact State.setLine_line_of_ne s (fun e => hm level (by rw [e])) _
    · rintro m l e
      obtain ⟨rfl, rfl⟩ := Instr.triggerLineEdge.inj e
      simp
  · have hl (n : LineId) (level : Bool) : c ≠ .triggerLineEdge n level := fun e => hline ⟨n, level, e⟩
    refine ⟨_, exec_of_not_running hwf h hseq hl, ?_⟩
    simp only [mem_reads_iff]
    split
    · exact ⟨rfl, rfl, fun _ => ⟨rfl, rfl⟩, fun _ _ => rfl, fun n l e => absurd e (hl n l)⟩
    · exact ⟨rfl, rfl, fun _ => ⟨rfl, rfl⟩, fun _ _ => rfl, fun n l e => absurd e (hl n l)⟩

-- Engine reset

/-- No source feeds a group after ENGINE_RESET: queues empty, latches clear, no port halted. -/
theorem engineReset_activeSources (s : State) (g : GroupId) : activeSources (engineReset s) g = 0 := by
  have queues (Q : Queue) : queueSources (engineResetQueue Q) = 0 := by
    have hl : (engineResetQueue Q).level = false := by
      simp only [Queue.level, engineResetQueue, Queue.occupancy, List.length_nil, Nat.le_zero,
        Bool.and_eq_false_iff, bne_eq_false_iff_eq, decide_eq_false_iff_not]
      by_cases ht : Q.threshold = 0
      · exact .inl ht
      · exact .inr fun e => ht (BitVec.eq_of_toNat_eq e)
    have hlost : (engineResetQueue Q).lost = false := rfl
    have herr : (engineResetQueue Q).err = false := rfl
    simp [queueSources, hl, hlost, herr, bitVal]
  have misses (e : TrigEntry) : missActive (engineResetEntry e) = false := rfl
  have halts (P : PortRec) : haltActive (engineResetPort P) = false := rfl
  simp [activeSources, engineReset_queue, engineReset_trigger, engineReset_port, queues, misses, halts,
    bitVal]

theorem engineReset_pendingGroup (s : State) (g : GroupId) :
    pendingGroup (engineReset s) g = false := by
  simp [pendingGroup, engineReset_activeSources]

theorem engineReset_irqState (s : State) : irqState (engineReset s) = false := by
  simp [irqState, claimable, engineReset_pendingGroup]

theorem onWire_of_state_ne {s : State} {p : Port} (h : (s.port p).state ≠ .shifting) :
    onWire s p = none := by
  rw [onWire, if_neg fun e => h e.2]

/-- Settles O5: every block's dynamic state, item by item. -/
theorem engineResetClearsAndKeeps : Obligations.EngineResetClearsAndKeeps := by
  intro s free
  refine ⟨engineReset s, next_hostWrite_of_busFree engineReset free, rfl, fun n => ?_, fun n => ?_,
    engineReset_run s, ?_, fun p => ?_, fun q => ?_, fun k => ?_, engineReset_pendingGroup s,
    engineReset_irqState s, fun p line => ?_⟩
  · exact mapAll_getElem _ s.lines n
  · exact engineReset_trigger s n
  · simp [freeCount, engineReset_run, freeRun, allSlots]
  · exact engineReset_port s p
  · exact engineReset_queue s q
  · exact mapAll_getElem _ s.timers k
  · have hw : onWire (engineReset s) p = none :=
      onWire_of_state_ne (by rw [engineReset_port]; simp [engineResetPort])
    simp [selectPin, dataPin, hw]

-- The laws at reset

theorem reset_trigger (n : Source) : State.reset.trigger n = resetEntry := by
  simp [State.trigger, State.reset]

theorem reset_queue (q : QueueId) : State.reset.queue q = resetQueue := by
  simp [State.queue, State.reset]

/-- Settles O50: the pool and the ports are empty, and everything that is counted is 0. -/
theorem resetMeetsEveryLaw : Obligations.ResetMeetsEveryLaw := by
  have accounting : AccountingBounded State.reset := by
    refine ⟨fun q => by rw [reset_queue]; exact ⟨le_rfl, le_rfl⟩, ?_⟩
    simp [quotaSum, reset_queue, resetQueue]
  have selects : SelectsDistinct State.reset := fun a b _ ha => by
    have h : targetEnable [] a = false := by
      simp only [targetEnable, targetByte, memRead]
      decide
    exact absurd ha (by rw [show State.reset.targets = [] from rfl, h]; simp)
  obtain ⟨counted, within, steps⟩ : LiveRuns State.reset :=
    .of_empty reset_run (fun n => by rw [reset_trigger]; rfl) fun n => by
      rw [reset_trigger]; exact Nat.zero_le 4
  obtain ⟨resv, attached⟩ : Reservations State.reset :=
    .of_empty reset_run fun q => by rw [reset_queue]; rfl
  have idle : IdleHasNone State.reset := fun p e => by
    rw [reset_port] at e
    simp [resetPort] at e
  have captures : CapturesBounded State.reset := fun n => by
    rw [reset_run]; exact captured_freeRun
  have frames : FramesCoherent State.reset := (framesCoherent_iff _).2 fun p =>
    .of_none (by rw [reset_port]; rfl) (.inl (by rw [reset_port]; rfl))
  exact ⟨⟨rfl, rfl, rfl⟩, accounting, ⟨rfl, fun e he => by simp [State.reset] at he⟩, selects, within,
    runsPlaced_reset, resv, attached, counted, idle, steps, onTargetsPort_of_empty reset_run,
    captures, fun _ => rfl, frames, le_rfl⟩

-- Refused accesses

/-- A command refused for its argument. -/
theorem withArg_refused {n : Nat} {code : FaultCode} {s : State} (f : Fin n → State → State)
    (h : (if n ≤ s.commandArg.toNat then some FaultCode.badArgument else none) = some code) :
    withArg n f s = recorded code s := by
  split at h
  · cases h
    exact withArg_of_ge f ‹_›
  · cases h

/-- PORT_RESET and PORT_ABORT without part clocks before them. -/
theorem whenRunning_afterClocks_zero (s : State) : whenRunning (afterClocks 0) s = s := by
  rw [whenRunning]
  exact ite_self s

theorem timerExpires_of_not_due {t : TimerId} {s : State}
    (h : ¬((s.timer t).running = true ∧ (s.timer t).count = 0)) : timerExpires t s = s :=
  if_neg h

/-- TIMER_START with reload 0 and no expiry due. -/
theorem startTimer_of_no_reload {t : TimerId} {s : State} (hr : (s.timer t).reload = 0)
    (h : ¬((s.timer t).running = true ∧ (s.timer t).count = 0)) :
    startTimer t s = recorded .badArgument s := by
  simp only [startTimer, timerExpires_of_not_due h, if_pos hr, refuse_eq_recorded]

theorem timerStart_refused {code : FaultCode} {s : State} (h : refusalCode s .timerStart = some code) :
    withArg 4 startTimer s = recorded code s := by
  dsimp only [refusalCode] at h
  split at h
  case isTrue hlt =>
    rw [withArg_of_val startTimer ⟨_, hlt⟩ rfl]
    split at h
    · cases h
      next hc => exact startTimer_of_no_reload hc.1 hc.2
    · cases h
  case isFalse hge =>
    cases h
    exact withArg_of_ge _ (Nat.le_of_not_lt hge)

theorem nend_refused {v : Byte} {code : FaultCode} {s : State}
    (h : refusalCode s (.nendWrite v) = some code) : endService v s = recorded code s := by
  dsimp only [refusalCode] at h
  split at h
  · cases h
    exact endService_of_ge s ‹_›
  · obtain ⟨g, hg⟩ : ∃ g : Fin 8, v.toNat = g.val := ⟨⟨v.toNat, by omega⟩, rfl⟩
    split at h
    · cases h
      exact endService_of_nil g hg ‹_›
    · next e rest hstack =>
      split at h
      · cases h
      · next hne =>
        cases h
        rw [endService_of_cons g hg hstack, if_neg fun e => hne (by rw [e, hg])]

theorem rqrelease_refused {v : Byte} {code : FaultCode} {s : State}
    (h : refusalCode s (.rqreleaseWrite v) = some code) : release v s = recorded code s := by
  dsimp only [refusalCode] at h
  split at h
  · next empty =>
    cases h
    simp only [release, empty, refuse_eq_recorded]
  · next r rest head =>
    split at h
    · cases h
    · next stale =>
      cases h
      simp only [release, head, if_neg stale, refuse_eq_recorded]

/-- Every refusal is that of the command's own test. -/
theorem exec_refused {c : Instr} {code : FaultCode} {s : State} (free : BusFree s)
    (h : refusalCode s c = some code) : exec c s = .next (recorded code s) := by
  have hw (f : State → State) (hf : f s = recorded code s) :
      (Host.Outcome.next (hostWrite f s) : Host.Outcome State Fault Refusal) =
        .next (recorded code s) := by
    rw [hostWrite_of_busFree f free, hf]
  have byte (n : Nat) (v : Byte)
      (hv : (if n ≤ v.toNat then some FaultCode.badArgument else none) = some code) :
      argOf n v = none ∧ code = .badArgument := by
    split at hv
    · exact ⟨argOf_of_ge ‹_›, (Option.some.inj hv).symm⟩
    · cases hv
  cases c with
  | readOnlyWrite reg v =>
    cases h
    exact hw _ (refuse_eq_recorded _ s)
  | badCommand v =>
    dsimp only [refusalCode] at h
    split at h
    · cases h
    · next hv =>
      cases h
      change execBadCommand v s = _
      rw [execBadCommand, if_neg (by simpa using hv)]
      exact hw _ (refuse_eq_recorded _ s)
  | swtrigWrite v =>
    obtain ⟨hv, rfl⟩ := byte 8 v h
    exact hw _ (by simp only [softwareTrigger, hv, refuse_eq_recorded])
  | tselWrite v =>
    obtain ⟨hv, rfl⟩ := byte 9 v h
    exact hw _ (by simp only [selectTable, hv, refuse_eq_recorded])
  | rqselWrite v =>
    obtain ⟨hv, rfl⟩ := byte 8 v h
    exact hw _ (by simp only [selectQueue, hv, refuse_eq_recorded])
  | nendWrite v => exact hw _ (nend_refused h)
  | rqreleaseWrite v => exact hw _ (rqrelease_refused h)
  | portReset later =>
    dsimp only [refusalCode] at h
    split at h
    · next hc =>
      obtain ⟨rfl, hge⟩ := hc
      cases h
      change Host.Outcome.next (hostWrite _ (whenRunning (afterClocks 0) s)) = _
      rw [whenRunning_afterClocks_zero]
      exact hw _ (withArg_of_ge _ hge)
    · cases h
  | portAbort later =>
    dsimp only [refusalCode] at h
    split at h
    · next hc =>
      obtain ⟨rfl, hge⟩ := hc
      cases h
      change Host.Outcome.next (hostWrite _ (whenRunning (afterClocks 0) s)) = _
      rw [whenRunning_afterClocks_zero]
      exact hw _ (withArg_of_ge _ hge)
    · cases h
  | portResume => exact hw _ (withArg_refused resumePort h)
  | cancelTrigger => exact hw _ (withArg_refused cancelSource h)
  | flushQueue => exact hw _ (withArg_refused flush h)
  | timerStop => exact hw _ (withArg_refused stopTimer h)
  | timerStart => exact hw _ (timerStart_refused h)
  | _ => cases h

/-- Settles O6. -/
theorem refusedAccessOnlyRecordsFault : Obligations.RefusedAccessOnlyRecordsFault :=
  ⟨fun _ _ _ free h => exec_refused free h, fun v s hv =>
    if_pos (show assignedCodes.contains v = true by simpa using hv)⟩

-- Registers that only store or clear

/-- The latches cleared of the sources in a list. -/
theorem foldl_clearMissLatch (c : Source → Prop) [DecidablePred c] (l : List Source) (s : State) :
    l.foldl (fun st n => if c n then clearMissLatch n st else st) s =
        { s with trig := (l.foldl (fun st n => if c n then clearMissLatch n st else st) s).trig }
      ∧ ∀ m, (l.foldl (fun st n => if c n then clearMissLatch n st else st) s).trigger m =
          if m ∈ l ∧ c m then { s.trigger m with missLatch := false } else s.trigger m := by
  induction l generalizing s with
  | nil => exact ⟨rfl, fun m => by simp⟩
  | cons n l ih =>
    rw [List.foldl_cons]
    obtain ⟨frame, latches⟩ := ih (if c n then clearMissLatch n s else s)
    refine ⟨frame.trans ?_, fun m => ?_⟩
    · split <;> rfl
    · rw [latches]
      by_cases e : m = n
      · subst e
        by_cases h : c m <;> simp [h, clearMissLatch]
      · have same : (if c n then clearMissLatch n s else s).trigger m = s.trigger m := by
          split
          · exact State.setTrigger_trigger_of_ne s e _
          · rfl
        simp [same, e]

/-- Settles O7: each write's meaning on a free bus. -/
theorem registerWritesChangeOneItem : Obligations.RegisterWritesChangeOneItem := by
  intro v s free
  refine ⟨next_hostWrite_of_busFree _ free, next_hostWrite_of_busFree _ free,
    next_hostWrite_of_busFree _ free, next_hostWrite_of_busFree _ free,
    next_hostWrite_of_busFree _ free, next_hostWrite_of_busFree _ free, fun reg => ?_⟩
  obtain ⟨frame, latches⟩ := foldl_clearMissLatch
    (fun n => n.val / 8 = reg.val ∧ bitOf v (n.val % 8) = true) allSources s
  refine ⟨_, next_hostWrite_of_busFree (clearMissLatches reg v) free, frame, fun n => ?_⟩
  refine (latches n).trans ?_
  by_cases h : n.val / 8 = reg.val ∧ bitOf v (n.val % 8) = true
  · obtain ⟨hreg, hbit⟩ := h
    have hv : v.getLsbD (n.val % 8) = true := hbit
    simp [allSources, hreg, hbit, hv]
  · have hv : (n.val / 8 == reg.val && v.getLsbD (n.val % 8)) = false := by
      simpa [bitOf] using h
    rw [if_neg fun hc => h hc.2, hv]
    simp

end Sys2Proof.Machine
end

section
/-! The tables (09 9.3): a TDATA write is the write of its owner with the index moved on; the stores, the target
table and the trigger map (01 1.4, 02 2.1, 02 2.5, 05 5.2). -/

namespace Sys2Proof.Machine

variable {s : State}

theorem indexAfter_eq (s : State) : indexAfter s = nextIndex s.tsel s.tidx.toNat := by
  refine BitVec.eq_of_toNat_eq ?_
  rw [toNat_nextIndex, indexAfter]
  have := tableSize_le s.tsel
  split
  · rw [BitVec.toNat_add]
    exact Nat.mod_eq_of_lt (by change s.tidx.toNat + 1 < 1024; omega)
  · rfl

theorem exec_tdataWrite_of_busFree (v : Byte) (free : BusFree s) :
    exec (.tdataWrite v) s = .next (writeTdata v s) :=
  next_hostWrite_of_busFree (writeTdata v) free

/-- A TDATA write inside the table: its owner's write, and the index moves on. -/
theorem exec_tdataWrite_inside {i : Nat} (tab : Fin 9) (v : Byte) (free : BusFree s)
    (hsel : s.tsel = tab) (hidx : s.tidx.toNat = i) (hin : i < tableSize tab) :
    exec (.tdataWrite v) s = .next { tableWrite tab i v s with tidx := indexAfter s } := by
  rw [exec_tdataWrite_of_busFree v free, writeTdata, indexAfter_eq, hsel, hidx, if_pos hin]

/-- A TDATA write at or beyond the table's end. -/
theorem exec_tdataWrite_beyond (v : Byte) (free : BusFree s) (h : tableSize s.tsel ≤ s.tidx.toNat) :
    exec (.tdataWrite v) s = .next { recorded .badArgument s with tidx := 0 } := by
  have hidx : nextIndex s.tsel s.tidx.toNat = 0 := if_neg (by omega)
  rw [exec_tdataWrite_of_busFree v free, writeTdata, if_neg (Nat.not_lt.2 h), refuse_eq_recorded, hidx]

/-- Settles O10. -/
theorem tdataWriteAlwaysAdvances : Obligations.TdataWriteAlwaysAdvances := by
  intro v s free
  refine ⟨_, exec_tdataWrite_of_busFree v free, ?_, fun h => ?_, fun hsel hidx => ?_⟩
  · obtain ⟨u, hu, he⟩ := writeTdata_written v s
    rw [he, indexAfter_eq]
    cases hu with
    | desc i v => rfl
    | pattern i v => rfl
    | table hu => rw [hu]
    | refused c =>
      rw [refuse]
      split <;> rfl
  · exact Host.Outcome.next.inj
      ((exec_tdataWrite_of_busFree v free).symm.trans (exec_tdataWrite_beyond v free h))
  · refine Host.Outcome.next.inj ((exec_tdataWrite_of_busFree v free).symm.trans ?_)
    rw [exec_tdataWrite_inside 6 v free hsel rfl hidx]
    rw [show tableWrite 6 s.tidx.toNat v s = recorded .readOnly s from refuse_eq_recorded .readOnly s]

/-- Settles O11: a write to canonical memory keeps it canonical and reads back. -/
theorem storeAndPatternTakeEveryByte : Obligations.StoreAndPatternTakeEveryByte := by
  intro v s free hin
  have reads {m : Mem} (h : Memory.wf m = true) (j : Nat) :
      memRead (memWrite m s.tidx.toNat v) j = if j = s.tidx.toNat then v else memRead m j := by
    split
    · next e => rw [e]; exact memRead_memWrite_self _ v h
    · next e => exact memRead_memWrite_of_ne v h e
  refine ⟨fun hsel h => ?_, fun hsel h => ?_⟩
  · exact ⟨_, exec_tdataWrite_inside 0 v free hsel rfl (hsel ▸ hin), rfl, memWrite_wf _ v h, reads h⟩
  · exact ⟨_, exec_tdataWrite_inside 1 v free hsel rfl (hsel ▸ hin), rfl, memWrite_wf _ v h, reads h⟩

-- Entries of eight bytes

theorem entry_of_index {n : Nat} [NeZero n] (e : Fin n) (k : Fin 8) :
    Fin.ofNat n ((8 * e.val + k.val) / 8) = e := by
  rw [show (8 * e.val + k.val) / 8 = e.val by omega]
  exact Fin.ext (Nat.mod_eq_of_lt e.isLt)

theorem byte_of_index {n : Nat} (e : Fin n) (k : Fin 8) : (8 * e.val + k.val) % 8 = k.val := by omega

theorem fin_ofNat_mod (n a : Nat) [NeZero n] : Fin.ofNat n (a % n) = Fin.ofNat n a :=
  Fin.ext (Nat.mod_mod a n)

-- The target table

theorem selectTaken_iff (m : Mem) (t : TargetId) (p : Port) (sel : Bool) :
    selectTaken m t p sel = true ↔
      ∃ u : TargetId, u ≠ t ∧ targetEnable m u = true ∧ targetPort m u = p ∧ targetSelect m u = sel := by
  simp [selectTaken, and_assoc]

/-- The port that a target entry's byte 0 names. -/
theorem port_of_byte (v : Byte) : (Fin.ofNat 4 (bitsOf v 1 2) : Port) = Fin.ofNat 4 (v.toNat / 2) :=
  fin_ofNat_mod 4 (v.toNat / 2)

/-- A write of byte `k` of target entry `tg` is refused as busy (05 R83). -/
@[reducible] def targetBusy (s : State) (tg : TargetId) (k : Fin 8) (v : Byte) : Prop :=
  (s.port (targetPort s.targets tg)).offAndEmpty = false
    ∨ (k = 0 ∧ Fin.ofNat 4 (v.toNat / 2) ≠ targetPort s.targets tg
        ∧ (s.port (Fin.ofNat 4 (v.toNat / 2))).offAndEmpty = false)

/-- A write of byte `k` of target entry `tg` is refused for its value (05 R84, 10 10.3). -/
def targetValueRefused (s : State) (tg : TargetId) (k : Fin 8) (v : Byte) : Prop :=
  (k = 1 ∧ 6 ≤ v.toNat % 8)
    ∨ (k = 0 ∧ v.getLsbD 0 = true ∧ ∃ u : TargetId, u ≠ tg ∧ targetEnable s.targets u = true
        ∧ targetPort s.targets u = Fin.ofNat 4 (v.toNat / 2)
        ∧ targetSelect s.targets u = v.getLsbD 3)

/-- A target byte's write, by the two tests. -/
theorem writeTarget_cases (tg : TargetId) (k : Fin 8) (v : Byte) (s : State) :
    (targetBusy s tg k v ∧ writeTarget (8 * tg.val + k.val) v s = recorded .entryBusy s)
    ∨ (¬targetBusy s tg k v ∧ targetValueRefused s tg k v
        ∧ writeTarget (8 * tg.val + k.val) v s = recorded .badValue s)
    ∨ (¬targetBusy s tg k v ∧ ¬targetValueRefused s tg k v
        ∧ writeTarget (8 * tg.val + k.val) v s =
          { s with targets := memWrite s.targets (8 * tg.val + k.val) v }) := by
  have busy : (!(s.port (targetPort s.targets tg)).offAndEmpty
      || (k.val == 0 && Fin.ofNat 4 (v.toNat / 2) != targetPort s.targets tg
        && !(s.port (Fin.ofNat 4 (v.toNat / 2))).offAndEmpty)) = true ↔ targetBusy s tg k v := by
    simp [targetBusy, and_assoc]
  have code : (k.val == 1 && decide (6 ≤ bitsOf v 0 3)) = true ↔ k = 1 ∧ 6 ≤ v.toNat % 8 := by
    simp [bitsOf, show k.val = 1 ↔ k = 1 by omega]
  have taken : (k.val == 0 && bitOf v 0
      && selectTaken s.targets tg (Fin.ofNat 4 (v.toNat / 2)) (bitOf v 3)) = true ↔
      k = 0 ∧ v.getLsbD 0 = true ∧ ∃ u : TargetId, u ≠ tg ∧ targetEnable s.targets u = true
        ∧ targetPort s.targets u = Fin.ofNat 4 (v.toNat / 2)
        ∧ targetSelect s.targets u = v.getLsbD 3 := by
    rw [Bool.and_eq_true, selectTaken_iff]
    simp [bitOf, and_assoc]
  simp only [writeTarget, entry_of_index, byte_of_index, port_of_byte, refuse_eq_recorded, busy, code,
    taken]
  by_cases hb : targetBusy s tg k v
  · exact .inl ⟨hb, if_pos hb⟩
  · rw [if_neg hb]
    refine .inr ?_
    split
    · exact .inl ⟨hb, .inl ‹_›, rfl⟩
    · next hcode =>
      split
      · exact .inl ⟨hb, .inr ‹_›, rfl⟩
      · next htaken => exact .inr ⟨hb, fun h => h.elim hcode htaken, rfl⟩

/-- Settles O12: the two tests in order. -/
theorem targetWritesCheckBusyThenValue : Obligations.TargetWritesCheckBusyThenValue := by
  intro tg k v s free hsel hidx hwf
  have hexec : exec (.tdataWrite v) s =
      .next { writeTarget (8 * tg.val + k.val) v s with tidx := indexAfter s } :=
    exec_tdataWrite_inside 2 v free hsel hidx (by change _ < 64; omega)
  have idle (h1 : (s.port (targetPort s.targets tg)).offAndEmpty = true)
      (h2 : k = 0 → Fin.ofNat 4 (v.toNat / 2) ≠ targetPort s.targets tg →
        (s.port (Fin.ofNat 4 (v.toNat / 2))).offAndEmpty = true) : ¬targetBusy s tg k v := by
    rintro (h | ⟨hk, hp, h⟩)
    · rw [h1] at h; cases h
    · rw [h2 hk hp] at h; cases h
  rw [hexec]
  obtain ⟨hb, he⟩ | ⟨hb, hv, he⟩ | ⟨hb, hv, he⟩ := writeTarget_cases tg k v s
  · rw [he]
    exact ⟨fun _ => rfl, fun h1 h2 _ => absurd hb (idle h1 h2), fun h1 h2 _ _ => absurd hb (idle h1 h2)⟩
  · rw [he]
    refine ⟨fun h => absurd h hb, fun _ _ _ => rfl, fun _ _ hcode htaken => ?_⟩
    obtain h | ⟨hk, hon, u, hu, hen, hport, hselect⟩ := hv
    · exact absurd h hcode
    · exact absurd ⟨hport, hselect⟩ (htaken hk hon u hu hen)
  · rw [he]
    refine ⟨fun h => absurd h hb, fun _ _ h => absurd h hv, fun _ _ _ _ =>
      ⟨_, rfl, rfl, memWrite_wf _ v hwf, fun j => ?_⟩⟩
    split
    · next e => rw [e]; exact memRead_memWrite_self _ v hwf
    · next e => exact memRead_memWrite_of_ne v hwf e

-- The trigger map

theorem tableRead_trigger (n : Source) (j : Fin 8) (t : State) :
    tableRead 3 (8 * n.val + j.val) t = trigByte (t.trigger n) j.val := by
  change trigByte (t.trigger (Fin.ofNat 20 ((8 * n.val + j.val) / 8))) ((8 * n.val + j.val) % 8) = _
  rw [entry_of_index, byte_of_index]

theorem bitVal_bitOf (v : Byte) (i : Nat) : bitVal (bitOf v i) = v.toNat / 2 ^ i % 2 := by
  rw [← Nat.toNat_testBit, ← BitVec.getLsbD]
  change bitVal (v.getLsbD i) = _
  cases v.getLsbD i <;> rfl

/-- The read-back mask of a configuration byte: the bits of its fields (10 10.2). -/
def configMask (k : Fin 8) : Byte := if k = 2 then 0x3F else if k = 4 then 0x0F else 0xFF

/-- A configuration byte's value is refused (01 R7). -/
def configRefused (k : Fin 8) (v : Byte) : Prop :=
  (k = 1 ∧ 128 ≤ v.toNat)
    ∨ (k = 2 ∧ (v.toNat % 8 = 0 ∨ 4 < v.toNat % 8 ∨ v.toNat / 16 % 4 = 3))
    ∨ (k = 4 ∧ 1 ≤ v.toNat % 16 ∧ v.toNat % 16 ≤ 7)

theorem edgeOf_eq_some {c : Nat} {sel : EdgeSelect} (h : edgeOf c = some sel) : edgeCode sel = c := by
  unfold edgeOf at h
  split at h <;> cases h <;> rfl

theorem edgeOf_eq_none_iff {c : Nat} (h : c < 4) : edgeOf c = none ↔ c = 3 := by
  interval_cases c <;> simp [edgeOf]

theorem onEndOf_eq_some {c : Nat} {o : Option (Fin 8)} (hc : c < 16) (h : onEndOf c = some o) :
    onEndCode o = c := by
  unfold onEndOf at h
  split at h
  · cases h
    exact ‹c = 0›.symm
  · split at h
    · cases h
      simp only [onEndCode, Fin.ofNat]
      omega
    · cases h

theorem onEndOf_eq_none_iff (c : Nat) : onEndOf c = none ↔ 1 ≤ c ∧ c ≤ 7 := by
  unfold onEndOf
  split
  · simp [*]
  · split
    · simp; omega
    · simp; omega

theorem byteOf_mod_eq_and (v : Byte) (m : Nat) (mask : Byte) (h : mask.toNat = 2 ^ m - 1) :
    byteOf (v.toNat % 2 ^ m) = v &&& mask := by
  refine byteOf_eq_of_toNat ?_
  rw [BitVec.toNat_and, h, Nat.and_two_pow_sub_one_eq_mod]

/-- What a configuration byte's write makes of its entry (01 R7): refused, or read back as written. -/
def ConfigWritten (e : TrigEntry) (k : Fin 8) (v : Byte) : Prop :=
  (configRefused k v ∧ triggerConfig e k.val v = none)
    ∨ (¬configRefused k v ∧ ∃ e', triggerConfig e k.val v = some e' ∧ e'.live = e.live
        ∧ e'.missLatch = e.missLatch
        ∧ ∀ j : Fin 8, trigByte e' j.val =
            if j = k then v &&& configMask k else trigByte e j.val)

/-- An accepted byte reads back as written, and the entry's other bytes stand. -/
theorem ConfigWritten.accept {e e' : TrigEntry} {k : Fin 8} {v : Byte} (hk : ¬configRefused k v)
    (he : triggerConfig e k.val v = some e') (live : e'.live = e.live)
    (latch : e'.missLatch = e.missLatch) (own : trigByte e' k.val = v &&& configMask k)
    (others : ∀ j : Fin 8, j ≠ k → trigByte e' j.val = trigByte e j.val) : ConfigWritten e k v := by
  refine .inr ⟨hk, e', he, live, latch, fun j => ?_⟩
  split
  · next h => rw [h]; exact own
  · next h => exact others j h

theorem firstDesc_written (e : TrigEntry) (v : Byte) : ConfigWritten e 1 v := by
  have refused : configRefused 1 v ↔ 128 ≤ v.toNat := by simp [configRefused]
  by_cases h : v.toNat < 128
  · refine .accept (e' := { e with firstDesc := ⟨v.toNat, h⟩ }) (by rw [refused]; omega)
      (dif_pos h) rfl rfl ((byteOf_eq_of_toNat rfl).trans (BitVec.and_allOnes (x := v)).symm) ?_
    rintro ⟨j, _⟩ hj
    match j with
    | 1 => exact absurd rfl hj
    | 0 | 2 | 3 | 4 | 5 | 6 | _ + 7 => rfl
  · exact .inl ⟨refused.2 (by omega), dif_neg h⟩

theorem limits_written (e : TrigEntry) (v : Byte) : ConfigWritten e 2 v := by
  have refused : configRefused 2 v ↔ v.toNat % 8 = 0 ∨ 4 < v.toNat % 8 ∨ v.toNat / 16 % 4 = 3 := by
    simp [configRefused]
  have hedge := edgeOf_eq_none_iff (c := v.toNat / 16 % 4) (Nat.mod_lt _ (by decide))
  have hconfig : triggerConfig e 2 v = match edgeOf (v.toNat / 16 % 4) with
      | none => none
      | some sel =>
        if v.toNat % 8 = 0 ∨ 4 < v.toNat % 8 then none
        else some { e with limit := BitVec.ofNat 3 (v.toNat % 8), tier := tierOf (bitOf v 3),
                           edge := sel } := by
    simp only [triggerConfig, bitsOf, Nat.pow_zero, Nat.div_one]
    rfl
  cases hsel : edgeOf (v.toNat / 16 % 4) with
  | none =>
    rw [hsel] at hconfig
    exact .inl ⟨refused.2 (.inr (.inr (hedge.1 hsel))), hconfig⟩
  | some sel =>
    rw [hsel] at hconfig
    by_cases h : v.toNat % 8 = 0 ∨ 4 < v.toNat % 8
    · exact .inl ⟨refused.2 (h.imp_right .inl), hconfig.trans (if_pos h)⟩
    · have assigned : v.toNat / 16 % 4 ≠ 3 := fun h3 => by
        rw [hedge.2 h3] at hsel
        cases hsel
      refine .accept (by rw [refused]; omega) (hconfig.trans (if_neg h)) rfl rfl ?_ ?_
      · have hbit : bitVal (bitOf v 3) = v.toNat / 8 % 2 := bitVal_bitOf v 3
        have htier : tierCode (tierOf (bitOf v 3)) = v.toNat / 8 % 2 := by
          rw [← hbit]
          cases bitOf v 3 <;> rfl
        refine Eq.trans ?_ (byteOf_mod_eq_and v 6 0x3F rfl)
        change byteOf (v.toNat % 8 % 8 + 8 * tierCode _ + 16 * edgeCode sel) = _
        rw [htier, edgeOf_eq_some hsel]
        exact congrArg byteOf (by omega)
      · rintro ⟨j, _⟩ hj
        match j with
        | 2 => exact absurd rfl hj
        | 0 | 1 | 3 | 4 | 5 | 6 | _ + 7 => rfl

theorem stepLimit_written (e : TrigEntry) (v : Byte) : ConfigWritten e 3 v := by
  refine .accept (e' := { e with stepLimit := v }) (by simp [configRefused]) rfl rfl rfl
    (BitVec.and_allOnes (x := v)).symm ?_
  rintro ⟨j, _⟩ hj
  match j with
  | 3 => exact absurd rfl hj
  | 0 | 1 | 2 | 4 | 5 | 6 | _ + 7 => rfl

theorem onEnd_written (e : TrigEntry) (v : Byte) : ConfigWritten e 4 v := by
  have refused : configRefused 4 v ↔ 1 ≤ v.toNat % 16 ∧ v.toNat % 16 ≤ 7 := by simp [configRefused]
  have hconfig : triggerConfig e 4 v =
      (onEndOf (v.toNat % 16)).map fun o => { e with onEnd := o } := by
    simp only [triggerConfig, bitsOf, Nat.pow_zero, Nat.div_one]
    rfl
  cases ho : onEndOf (v.toNat % 16) with
  | none =>
    rw [ho] at hconfig
    exact .inl ⟨refused.2 ((onEndOf_eq_none_iff _).1 ho), hconfig⟩
  | some o =>
    rw [ho] at hconfig
    have hk : ¬configRefused 4 v := fun h => by
      rw [(onEndOf_eq_none_iff _).2 (refused.1 h)] at ho
      cases ho
    refine .accept hk hconfig rfl rfl ?_ ?_
    · refine Eq.trans ?_ (byteOf_mod_eq_and v 4 0x0F rfl)
      exact congrArg byteOf (onEndOf_eq_some (Nat.mod_lt _ (by decide)) ho)
    · rintro ⟨j, _⟩ hj
      match j with
      | 4 => exact absurd rfl hj
      | 0 | 1 | 2 | 3 | 5 | 6 | _ + 7 => rfl

theorem holdOffTicks_written (e : TrigEntry) (v : Byte) : ConfigWritten e 5 v := by
  refine .accept (e' := { e with holdOffTicks := v }) (by simp [configRefused]) rfl rfl rfl
    (BitVec.and_allOnes (x := v)).symm ?_
  rintro ⟨j, _⟩ hj
  match j with
  | 5 => exact absurd rfl hj
  | 0 | 1 | 2 | 3 | 4 | 6 | _ + 7 => rfl

theorem triggerConfig_written (e : TrigEntry) {k : Fin 8} (v : Byte) (h1 : 1 ≤ k.val) (h5 : k.val ≤ 5) :
    ConfigWritten e k v := by
  obtain rfl | rfl | rfl | rfl | rfl : k = 1 ∨ k = 2 ∨ k = 3 ∨ k = 4 ∨ k = 5 := by omega
  · exact firstDesc_written e v
  · exact limits_written e v
  · exact stepLimit_written e v
  · exact onEnd_written e v
  · exact holdOffTicks_written e v

section
variable (n : Source) {k : Fin 8} (v : Byte) (s : State) (h1 : 1 ≤ k.val) (h5 : k.val ≤ 5)
include h1 h5

/-- A configuration byte of an entry that is enabled or has live runs (01 R8). -/
theorem writeTrigger_of_busy (h : (s.trigger n).busy = true) :
    writeTrigger (8 * n.val + k.val) v s = recorded .entryBusy s := by
  simp only [writeTrigger, entry_of_index, byte_of_index]
  rw [if_neg (by omega), if_neg (by omega), if_neg (by omega), if_pos h, refuse_eq_recorded]

/-- A configuration byte with a value that is refused (01 R7). -/
theorem writeTrigger_of_none (h : ¬(s.trigger n).busy = true)
    (hv : triggerConfig (s.trigger n) k.val v = none) :
    writeTrigger (8 * n.val + k.val) v s = recorded .badValue s := by
  simp only [writeTrigger, entry_of_index, byte_of_index, hv]
  rw [if_neg (by omega), if_neg (by omega), if_neg (by omega), if_neg h, refuse_eq_recorded]

/-- A configuration byte taken (01 R7). -/
theorem writeTrigger_of_some {e' : TrigEntry} (h : ¬(s.trigger n).busy = true)
    (hv : triggerConfig (s.trigger n) k.val v = some e') :
    writeTrigger (8 * n.val + k.val) v s = s.setTrigger n e' := by
  simp only [writeTrigger, entry_of_index, byte_of_index, hv]
  rw [if_neg (by omega), if_neg (by omega), if_neg (by omega), if_neg h]

end

theorem TrigEntry.busy_iff (e : TrigEntry) : e.busy = true ↔ e.enable = true ∨ e.live ≠ 0 := by
  simp [TrigEntry.busy]

/-- Settles O13, class by class. -/
theorem triggerMapWritesFollowTheirClass : Obligations.TriggerMapWritesFollowTheirClass := by
  intro n k v s free hsel hidx
  have hexec : exec (.tdataWrite v) s =
      .next { writeTrigger (8 * n.val + k.val) v s with tidx := indexAfter s } :=
    exec_tdataWrite_inside 3 v free hsel hidx (by change _ < 160; omega)
  have anyTime (hk : k = 0) : writeTrigger (8 * n.val + k.val) v s = writeTriggerAnyTime n v s := by
    subst hk
    simp only [writeTrigger, entry_of_index, byte_of_index]
    exact if_pos rfl
  rw [hexec]
  refine ⟨fun hk hon hlim => ?_, fun hk hnot => ?_, fun hk => ?_, fun hk => ?_, fun h1 h5 hbusy => ?_,
    fun h1 h5 hoff hlive hv => ?_, fun h1 h5 hoff hlive hv => ?_⟩
  · rw [anyTime hk, writeTriggerAnyTime, if_pos (by simp [bitOf, hon, hlim]), refuse_eq_recorded]
  · rw [anyTime hk, writeTriggerAnyTime, if_neg (by simpa [bitOf] using hnot)]
    simp only [show (Fin.ofNat 8 (bitsOf v 4 3) : GroupId) = Fin.ofNat 8 (v.toNat / 16) from
      fin_ofNat_mod 8 (v.toNat / 16)]
    rfl
  · subst hk
    simp only [writeTrigger, entry_of_index, byte_of_index]
    rfl
  · subst hk
    simp only [writeTrigger, entry_of_index, byte_of_index]
    rfl
  · rw [writeTrigger_of_busy n v s h1 h5 ((TrigEntry.busy_iff _).2 hbusy)]
  · have idle : ¬(s.trigger n).busy = true := by simp [TrigEntry.busy_iff, hoff, hlive]
    obtain ⟨-, he⟩ | ⟨hk, -⟩ := triggerConfig_written (s.trigger n) v h1 h5
    · rw [writeTrigger_of_none n v s h1 h5 idle he]
    · exact absurd hv hk
  · have idle : ¬(s.trigger n).busy = true := by simp [TrigEntry.busy_iff, hoff, hlive]
    obtain ⟨hk, -⟩ | ⟨-, e', he, live, latch, bytes⟩ := triggerConfig_written (s.trigger n) v h1 h5
    · exact absurd hk hv
    · rw [writeTrigger_of_some n v s h1 h5 idle he]
      refine ⟨_, rfl, rfl, fun m hm => State.setTrigger_trigger_of_ne s hm _, ?_, ?_, fun j => ?_⟩
      · exact (congrArg TrigEntry.live (State.setTrigger_trigger_self s n e')).trans live
      · exact (congrArg TrigEntry.missLatch (State.setTrigger_trigger_self s n e')).trans latch
      · rw [tableRead_trigger, tableRead_trigger]
        refine Eq.trans ?_ (bytes j)
        exact congrArg (trigByte · j.val) (State.setTrigger_trigger_self s n e')

end Sys2Proof.Machine
end

section
/-! The tables with port and queue settings (04 4.6, 05 5.8, 06 6.8, 07 7.2, 08 8.4), and the decisions that a
table write leads to. -/

namespace Sys2Proof.Machine

variable {s : State}

-- Decisions with the index moved on

theorem decision_withIndex (x : BitVec 10) (s : State) (p : Port) :
    decision { s with tidx := x } p = { decision s p with tidx := x } := by
  have port : State.port { s with tidx := x } p = s.port p := rfl
  have elig : eligible { s with tidx := x } = eligible s := rfl
  simp only [decision, port, elig]
  split
  · cases (s.port p).urgent.find? (eligible s) with
    | none => cases (s.port p).normal.find? (eligible s) <;> rfl
    | some a =>
      cases (s.port p).normal.find? (eligible s) with
      | none => rfl
      | some b =>
        dsimp only
        split <;> rfl
  · rfl

theorem foldl_decision_withIndex (x : BitVec 10) (l : List Port) (s : State) :
    l.foldl decision { s with tidx := x } = { l.foldl decision s with tidx := x } := by
  induction l generalizing s with
  | nil => rfl
  | cons p l ih => rw [List.foldl_cons, List.foldl_cons, decision_withIndex, ih]

/-- The decisions do not see the table index. -/
theorem Decided.withIndex {led : Port → Bool} {m t : State} (h : Decided led m t) (x : BitVec 10) :
    Decided led { m with tidx := x } { t with tidx := x } := by
  obtain ⟨l, k, hl, hk, ht⟩ := h
  refine ⟨l, k, hl, hk, ?_⟩
  rw [ht]
  exact (foldl_decision_withIndex x l { m with raceCount := k }).symm

/-- No port is led to a decision. -/
theorem Decided.of_none {led : Port → Bool} {m : State}
    (h : ∀ p, (m.port p).state = .idle → led p = false) : Decided led m m := by
  refine ⟨[], m.raceCount, ?_, fun _ => rfl, rfl⟩
  rw [List.filter_eq_nil_iff.2]
  intro p _
  rw [Bool.and_eq_true, beq_iff_eq]
  rintro ⟨hi, hl⟩
  rw [h p hi] at hl
  cases hl

theorem Decided.congr {led led' : Port → Bool} {m t : State} (h : Decided led m t)
    (e : ∀ p, led p = led' p) : Decided led' m t := by
  rwa [show led' = led from funext fun p => (e p).symm]

-- The quota and policy byte

theorem attachedNames_iff (s : State) (q : QueueId) :
    attachedNames s q = true ↔
      ∃ n, ((s.run n).state = .active ∨ (s.run n).state = .awaiting) ∧ copyQueue (s.run n).copy = q := by
  simp [attachedNames, allSlots, Run.isAttached, names]

theorem policyOf_eq_lossless_iff (b : Bool) : policyOf b = .lossless ↔ b = true := by
  cases b <;> simp [policyOf]

theorem sum_map_filter_ne {α : Type} [DecidableEq α] (f : α → Nat) (q : α) (l : List α) :
    ((l.filter fun x => x != q).map f).sum = (l.map fun x => if x = q then 0 else f x).sum := by
  induction l with
  | nil => rfl
  | cons x l ih => by_cases h : x = q <;> simp [h, ih]

theorem occupancy_ne_zero_iff (Q : Queue) : Q.occupancy ≠ 0 ↔ Q.records ≠ [] := by
  simp [Queue.occupancy]

/-- Settles O14: the five tests are `writeQuota`'s own. -/
theorem quotaWritesPassFiveChecks : Obligations.QuotaWritesPassFiveChecks := by
  intro q v s free hsel hidx
  have hwrite : writeQueue (8 * q.val) v s = writeQuota q v s := by
    have hq : (Fin.ofNat 8 (8 * q.val / 8) : QueueId) = q := entry_of_index q 0
    have hk : 8 * q.val % 8 = 0 := byte_of_index q 0
    simp only [writeQueue, hq, hk]
  have hexec : exec (.tdataWrite v) s = .next { writeQuota q v s with tidx := indexAfter s } := by
    rw [exec_tdataWrite_inside 4 v free hsel hidx (by change _ < 64; omega), ← hwrite]
    rfl
  have hbits : bitsOf v 0 7 = v.toNat % 128 := by simp [bitsOf]
  have hbit : bitOf v 7 = v.getLsbD 7 := rfl
  have sum : otherQuotas s q = ((List.finRange 8).map fun x => if x = q then 0 else (s.queue x).quota).sum :=
    sum_map_filter_ne _ q _
  obtain ⟨t, ht⟩ : ∃ t, writeQuota q v s = t := ⟨_, rfl⟩
  rw [hexec, ht]
  simp only [writeQuota, refuse_eq_recorded, occupancy_ne_zero_iff, attachedNames_iff,
    policyOf_eq_lossless_iff, hbits, hbit, sum, Nat.add_comm _ (v.toNat % 128)] at ht
  split_ifs at ht ⊢
  · rw [ht]
  · rw [ht]
  · rw [ht]
  · rw [ht]
  · rw [ht]
  · rw [← ht]
    exact ⟨_, rfl, (decideWhere_decided _ _).withIndex _⟩

-- The other bytes of the queue config table, the group and timer tables

theorem writeQueue_at (x : QueueId) (k : Fin 8) (v : Byte) (s : State) :
    writeQueue (8 * x.val + k.val) v s = match k.val with
      | 0 => writeQuota x v s
      | 1 => if (s.queue x).quota < v.toNat then refuse .badValue s
             else s.setQueue x { s.queue x with threshold := v }
      | 2 => s.setQueue x
          { s.queue x with
            group := Fin.ofNat 8 (bitsOf v 0 3), levelEn := bitOf v 4, lostEn := bitOf v 5,
            errEn := bitOf v 6 }
      | _ => s := by
  simp only [writeQueue, entry_of_index, byte_of_index] <;> rfl

theorem entry_of_short_index {n : Nat} [NeZero n] (e : Fin n) (k : Fin 4) :
    Fin.ofNat n ((4 * e.val + k.val) / 4) = e := by
  rw [show (4 * e.val + k.val) / 4 = e.val by omega]
  exact Fin.ext (Nat.mod_eq_of_lt e.isLt)

theorem byte_of_short_index {n : Nat} (e : Fin n) (k : Fin 4) : (4 * e.val + k.val) % 4 = k.val := by
  omega

theorem writeGroup_at (g : GroupId) (k : Fin 4) (v : Byte) (s : State) :
    writeGroup (4 * g.val + k.val) v s = match k.val with
      | 0 => s.setGroup g { enable := bitOf v 0, tier := groupTierOf (bitOf v 1),
                            rank := BitVec.ofNat 3 (bitsOf v 4 3) }
      | _ => s := by
  simp only [writeGroup, entry_of_short_index, byte_of_short_index] <;> rfl

theorem writeTimer_at (t : TimerId) (k : Fin 4) (v : Byte) (s : State) :
    writeTimer (4 * t.val + k.val) v s = match k.val with
      | 0 => s.setTimer t { s.timer t with reload := halfOf (highByte (s.timer t).reload) v }
      | 1 => s.setTimer t { s.timer t with reload := halfOf v (lowByte (s.timer t).reload) }
      | 2 => s.setTimer t { s.timer t with mode := timerModeOf (bitOf v 0) }
      | _ => s := by
  simp only [writeTimer, entry_of_short_index, byte_of_short_index] <;> rfl

theorem writePort_at (p : Port) (k : Fin 4) (v : Byte) (s : State) :
    writePort (4 * p.val + k.val) v s = match k.val with
      | 0 => writePortEnable p (bitOf v 0) (s.setPort p
          { s.port p with haltOnError := bitOf v 1, haltNotify := bitOf v 2,
                          group := Fin.ofNat 8 (bitsOf v 4 3) })
      | 1 => s.setPort p { s.port p with starveLimit := BitVec.ofNat 4 (bitsOf v 0 4) }
      | _ => s := by
  simp only [writePort, entry_of_short_index, byte_of_short_index] <;> rfl

/-- The low byte of a reload written. -/
theorem halfOf_highByte (h : Half) (v : Byte) : halfOf (highByte h) v = h &&& 0xFF00 ||| v.setWidth 16 := by
  unfold halfOf highByte
  refine BitVec.eq_of_getLsbD_eq fun i hi => ?_
  rw [BitVec.getLsbD_append]
  interval_cases i <;> simp

/-- The high byte of a reload written. -/
theorem halfOf_lowByte (h : Half) (v : Byte) :
    halfOf v (lowByte h) = v.setWidth 16 <<< 8 ||| h &&& 0x00FF := by
  unfold halfOf lowByte
  refine BitVec.eq_of_getLsbD_eq fun i hi => ?_
  rw [BitVec.getLsbD_append]
  interval_cases i <;> simp

theorem bitVec_ofNat_mod (w a : Nat) : BitVec.ofNat w (a % 2 ^ w) = BitVec.ofNat w a := by
  refine BitVec.eq_of_toNat_eq ?_
  rw [BitVec.toNat_ofNat, BitVec.toNat_ofNat, Nat.mod_mod]

section
variable (v : Byte) (free : BusFree s)
include free

theorem exec_queueByte (x : QueueId) (k : Fin 8) (hsel : s.tsel = 4)
    (hidx : s.tidx.toNat = 8 * x.val + k.val) :
    exec (.tdataWrite v) s =
      .next { writeQueue (8 * x.val + k.val) v s with tidx := indexAfter s } :=
  exec_tdataWrite_inside 4 v free hsel hidx (by change _ < 64; omega)

theorem exec_groupByte (g : GroupId) (k : Fin 4) (hsel : s.tsel = 5)
    (hidx : s.tidx.toNat = 4 * g.val + k.val) :
    exec (.tdataWrite v) s =
      .next { writeGroup (4 * g.val + k.val) v s with tidx := indexAfter s } :=
  exec_tdataWrite_inside 5 v free hsel hidx (by change _ < 32; omega)

theorem exec_timerByte (t : TimerId) (k : Fin 4) (hsel : s.tsel = 8)
    (hidx : s.tidx.toNat = 4 * t.val + k.val) :
    exec (.tdataWrite v) s =
      .next { writeTimer (4 * t.val + k.val) v s with tidx := indexAfter s } :=
  exec_tdataWrite_inside 8 v free hsel hidx (by change _ < 16; omega)

theorem exec_portByte (p : Port) (k : Fin 4) (hsel : s.tsel = 7)
    (hidx : s.tidx.toNat = 4 * p.val + k.val) :
    exec (.tdataWrite v) s =
      .next { writePort (4 * p.val + k.val) v s with tidx := indexAfter s } :=
  exec_tdataWrite_inside 7 v free hsel hidx (by change _ < 16; omega)

end

/-- Settles O15, byte by byte. -/
theorem queueGroupAndTimerBytesWritten : Obligations.QueueGroupAndTimerBytesWritten := by
  intro x v s free
  have group3 : (Fin.ofNat 8 (bitsOf v 0 3) : GroupId) = Fin.ofNat 8 v.toNat := by
    simp only [bitsOf, Nat.pow_zero, Nat.div_one]
    exact fin_ofNat_mod 8 v.toNat
  have rank3 : BitVec.ofNat 3 (bitsOf v 4 3) = BitVec.ofNat 3 (v.toNat / 16) :=
    bitVec_ofNat_mod 3 (v.toNat / 16)
  refine ⟨fun hsel hidx => ?_, fun hsel hidx => ?_, fun k hk hsel hidx => ?_, fun hsel hidx => ?_,
    fun k hk hsel hidx => ?_, fun k hsel => ⟨fun hidx => ?_, fun hidx => ?_, fun hidx => ?_,
      fun hidx => ?_⟩⟩
  · have ht : writeQueue (8 * x.val + (1 : Fin 8).val) v s =
        if (s.queue x).quota < v.toNat then refuse .badValue s
        else s.setQueue x { s.queue x with threshold := v } := writeQueue_at x 1 v s
    rw [exec_queueByte v free x 1 hsel hidx]
    split
    · next h => rw [ht, if_pos h, refuse_eq_recorded]
    · next h => rw [ht, if_neg h]
  · rw [exec_queueByte v free x 2 hsel hidx, writeQueue_at, group3]
    rfl
  · rw [exec_queueByte v free x k hsel hidx, writeQueue_at]
    obtain rfl | rfl | rfl | rfl | rfl : k = 3 ∨ k = 4 ∨ k = 5 ∨ k = 6 ∨ k = 7 := by omega
    all_goals rfl
  · rw [exec_groupByte v free x 0 hsel hidx, writeGroup_at, rank3]
    rfl
  · rw [exec_groupByte v free x k hsel hidx, writeGroup_at]
    obtain rfl | rfl | rfl : k = 1 ∨ k = 2 ∨ k = 3 := by omega
    all_goals rfl
  · rw [exec_timerByte v free k 0 hsel hidx, writeTimer_at, halfOf_highByte]
    rfl
  · rw [exec_timerByte v free k 1 hsel hidx, writeTimer_at, halfOf_lowByte]
    rfl
  · rw [exec_timerByte v free k 2 hsel hidx, writeTimer_at]
    rfl
  · rw [exec_timerByte v free k 3 hsel hidx, writeTimer_at]
    rfl

-- The port config table

/-- Where the enable byte puts a port (05 R98). -/
def enabledState (st : PortState) (on : Bool) : PortState :=
  if st = .off ∧ on = true then .idle
  else if st = .idle ∧ on = false then .off
  else st

/-- The enable byte of a port with record `P`: stored, the port moved, and a decision where it leaves OFF. -/
theorem writePortEnable_decided (p : Port) (on : Bool) (P : PortRec) (s : State) :
    Decided (fun x => x == p && P.state == .off && on)
      (s.setPort p { P with enable := on, state := enabledState P.state on })
      (writePortEnable p on (s.setPort p P)) := by
  have quiet {P' : PortRec} (h : (P.state == .off && on) = false) :
      Decided (fun x => x == p && P.state == .off && on) (s.setPort p P') (s.setPort p P') :=
    .of_none fun x _ => by rw [Bool.and_assoc, h, Bool.and_false]
  simp only [writePortEnable, State.setPort_port_self, State.setPort_setPort]
  split
  · next hoff =>
    rw [hoff]
    exact (decideWhere_decided _ _).congr fun x => by simp
  · next hidle =>
    have hstate : enabledState P.state false = .off := by
      rw [hidle]
      rfl
    rw [hstate]
    exact quiet (Bool.and_false _)
  · next on _ _ hoff hidle =>
    have hstate : enabledState P.state on = P.state := by
      unfold enabledState
      rw [if_neg fun h => hoff h.1 h.2, if_neg fun h => hidle h.1 h.2]
    rw [hstate]
    refine quiet ?_
    rw [Bool.and_eq_false_iff, beq_eq_false_iff_ne]
    by_cases h : P.state = .off
    · exact .inr (Bool.eq_false_iff.2 (hoff h))
    · exact .inl h

/-- Settles O16, byte by byte. -/
theorem portConfigWritesActByState : Obligations.PortConfigWritesActByState := by
  intro p v s free hsel
  have group3 : (Fin.ofNat 8 (bitsOf v 4 3) : GroupId) = Fin.ofNat 8 (v.toNat / 16) :=
    fin_ofNat_mod 8 (v.toNat / 16)
  have limit4 : BitVec.ofNat 4 (bitsOf v 0 4) = BitVec.ofNat 4 v.toNat := by
    simp only [bitsOf, Nat.pow_zero, Nat.div_one]
    exact bitVec_ofNat_mod 4 v.toNat
  refine ⟨fun hidx => ?_, fun hidx => ?_, fun hidx => ?_⟩
  · have enabled := writePortEnable_decided p (v.getLsbD 0)
      { s.port p with haltOnError := bitOf v 1, haltNotify := bitOf v 2,
                      group := Fin.ofNat 8 (bitsOf v 4 3) } s
    have hw : writePort (4 * p.val + (0 : Fin 4).val) v s = writePortEnable p (v.getLsbD 0) (s.setPort p
        { s.port p with haltOnError := bitOf v 1, haltNotify := bitOf v 2,
                        group := Fin.ofNat 8 (bitsOf v 4 3) }) := writePort_at p 0 v s
    rw [← hw, group3] at enabled
    exact ⟨_, exec_portByte v free p 0 hsel hidx, enabled.withIndex _⟩
  · rw [exec_portByte v free p 1 hsel hidx, writePort_at, limit4]
    rfl
  · obtain hidx | hidx := hidx
    · rw [exec_portByte v free p 2 hsel hidx, writePort_at]
      rfl
    · rw [exec_portByte v free p 3 hsel hidx, writePort_at]
      rfl

end Sys2Proof.Machine
end

section
/-! Lines and timers at the block itself (01 1.2, 08 8.4), the timestamp (08 8.2), the run pool view (10 10.4),
the head record (06 6.5, 6.6), notification (chapter 7), and PORT_RESUME's grant (04 4.3-4.5). -/

namespace Sys2Proof.Machine

variable {s : State}

-- Trigger lines

theorem exec_lineEdge_of_running (n : LineId) (level : Bool) (h : s.mode = .running) :
    exec (.triggerLineEdge n level) s =
      .next (lineSees n level (s.setLine n { s.line n with pin := level })) :=
  congrArg Host.Outcome.next (whenRunning_of_running _ h)

theorem lineSees_of_seen {n : LineId} {level : Bool} (h : (s.line n).ref = level) :
    lineSees n level s = s :=
  if_pos h

/-- A change that is not selected, or falls in the hold-off, moves the reference alone. -/
theorem lineSees_of_ignored {n : LineId} {level : Bool} (h : (s.line n).ref ≠ level)
    (hi : (selectedEdge (s.trigger (lineSource n)).edge level && (s.line n).holdOff.isNone) = false) :
    lineSees n level s = s.setLine n { s.line n with ref := level } := by
  simp only [lineSees, if_neg h, hi, Bool.false_eq_true, if_false]

/-- An accepted edge starts the hold-off and delivers the event. -/
theorem lineSees_of_accepted {n : LineId} {level : Bool} (h : (s.line n).ref ≠ level)
    (hs : selectedEdge (s.trigger (lineSource n)).edge level = true) (hh : (s.line n).holdOff = none) :
    lineSees n level s = triggerEvent (lineSource n) (s.setLine n
      { s.line n with
        ref := level, holdOff := startedHoldOff (s.trigger (lineSource n)).holdOffTicks }) := by
  simp only [lineSees, if_neg h, hs, hh, Option.isNone_none, Bool.and_self, if_true,
    State.setLine_setLine]

theorem triggerEvent_of_disabled {src : Source} (h : (s.trigger src).enable = false) :
    triggerEvent src s = s := by
  simp only [triggerEvent, h, Bool.not_false, if_true]

theorem startedHoldOff_eq (t : Byte) : startedHoldOff t = if t = 0 then none else some t.toNat := rfl

theorem selectedEdge_eq_false_iff (e : EdgeSelect) (level : Bool) :
    selectedEdge e level = false ↔
      (e = .rising ∧ level = false) ∨ (e = .falling ∧ level = true) := by
  cases e <;> cases level <;> simp [selectedEdge]

theorem selectedEdge_eq_true_iff (e : EdgeSelect) (level : Bool) :
    selectedEdge e level = true ↔
      e = .both ∨ (e = .rising ∧ level = true) ∨ (e = .falling ∧ level = false) := by
  cases e <;> cases level <;> simp [selectedEdge]

/-- Settles O18. -/
theorem lineEdgesAndHoldOff : Obligations.LineEdgesAndHoldOff := by
  intro n src level s running hsrc
  have hline : lineSource n = src := Fin.ext hsrc.symm
  refine ⟨fun hseen => ?_, fun hne hnot => ?_, fun hne hfree hsel hoff => ?_, fun hdue => ?_⟩
  · rw [exec_lineEdge_of_running n level running, lineSees_of_seen (by simpa using hseen)]
  · rw [exec_lineEdge_of_running n level running, lineSees_of_ignored (by simpa using hne)]
    · simp
    · rw [hline, Bool.and_eq_false_iff, selectedEdge_eq_false_iff]
      simpa [or_assoc, Option.isNone_eq_false_iff, Option.isSome_iff_ne_none] using hnot
  · rw [exec_lineEdge_of_running n level running, lineSees_of_accepted (by simpa using hne), hline,
      triggerEvent_of_disabled (by simpa using hoff)]
    · simp [startedHoldOff_eq]
    · rw [hline, selectedEdge_eq_true_iff]
      simpa using hsel
    · simpa using hfree
  · change Host.Outcome.next (whenRunning (holdOffOver n) s) = _
    rw [whenRunning_of_running _ running, holdOffOver, if_pos hdue]

-- Interval timers

theorem timerExpires_of_due {t : TimerId} (h : (s.timer t).running = true ∧ (s.timer t).count = 0) :
    timerExpires t s = (triggerEvent (timerSource t) s).setTimer t
      (expiredTimer ((triggerEvent (timerSource t) s).timer t)) :=
  if_pos h

/-- An expired timer has stopped or has ticks left. -/
theorem expiredTimer_not_due (T : Timer) :
    ¬((expiredTimer T).running = true ∧ (expiredTimer T).count = 0) := by
  unfold expiredTimer
  split
  · simp
  · split
    · simp
    · next h => exact fun e => h e.2

theorem timerExpires_not_due (t : TimerId) (s : State) :
    ¬(((timerExpires t s).timer t).running = true ∧ ((timerExpires t s).timer t).count = 0) := by
  by_cases h : (s.timer t).running = true ∧ (s.timer t).count = 0
  · rw [timerExpires_of_due h, State.setTimer_timer_self]
    exact expiredTimer_not_due _
  · rwa [timerExpires_of_not_due h]

theorem timerExpires_busFree (t : TimerId) (free : BusFree s) :
    BusFree (timerExpires t s) ∧ (timerExpires t s).commandArg = s.commandArg := by
  by_cases h : (s.timer t).running = true ∧ (s.timer t).count = 0
  · have keeps := (triggerEvent_events (timerSource t) s).keeps.frame
    rw [timerExpires_of_due h, BusFree, State.setTimer_mode, State.setTimer_claim,
      State.setTimer_commandArg, keeps]
    exact ⟨free, rfl⟩
  · rw [timerExpires_of_not_due h]
    exact ⟨free, rfl⟩

theorem timerExpires_idem (t : TimerId) (s : State) :
    timerExpires t (timerExpires t s) = timerExpires t s :=
  timerExpires_of_not_due (timerExpires_not_due t s)

theorem exec_timerStart_of_val (k : TimerId) (free : BusFree s) (harg : s.commandArg.toNat = k.val) :
    exec .timerStart s = .next (startTimer k s) :=
  (next_hostWrite_of_busFree _ free).trans (congrArg _ (withArg_of_val _ k harg))

theorem exec_timerStop_of_val (k : TimerId) (free : BusFree s) (harg : s.commandArg.toNat = k.val) :
    exec .timerStop s = .next (stopTimer k s) :=
  (next_hostWrite_of_busFree _ free).trans (congrArg _ (withArg_of_val _ k harg))

/-- Settles O26. -/
theorem timerStartAndStop : Obligations.TimerStartAndStop := by
  intro k s free
  refine ⟨fun hge => ?_, fun harg hnot => ⟨fun hr => ?_, fun hr => ?_, ?_, fun hstop hzero => ?_⟩,
    fun harg hrun hzero => ?_⟩
  · have hcode : (if 4 ≤ s.commandArg.toNat then some FaultCode.badArgument else none) =
        some .badArgument := if_pos hge
    exact ⟨exec_refused free (dif_neg (by omega)), exec_refused free hcode⟩
  · rw [exec_timerStart_of_val k free harg, startTimer_of_no_reload hr hnot]
  · rw [exec_timerStart_of_val k free harg]
    simp only [startTimer, timerExpires_of_not_due hnot, if_neg hr]
  · rw [exec_timerStop_of_val k free harg]
    simp only [stopTimer, timerExpires_of_not_due hnot]
  · rw [exec_timerStop_of_val k free harg]
    simp only [stopTimer, timerExpires_of_not_due hnot]
    have same : ({ s.timer k with running := false, count := 0 } : Timer) = s.timer k := by
      rw [← hstop, ← hzero]
    rw [same, State.setTimer_self]
  · obtain ⟨free', harg'⟩ := timerExpires_busFree k free
    have arg := harg' ▸ harg
    refine ⟨timerExpires k s, congrArg Host.Outcome.next (whenRunning_of_running _ free.1), free', harg',
      timerExpires_not_due k s, ?_, ?_⟩
    · rw [exec_timerStart_of_val k free harg, exec_timerStart_of_val k free' arg]
      simp only [startTimer, timerExpires_idem]
    · rw [exec_timerStop_of_val k free harg, exec_timerStop_of_val k free' arg]
      simp only [stopTimer, timerExpires_idem]

-- The timestamp

theorem highByte_append_lowByte (h : Half) : highByte h ++ lowByte h = h := by
  refine BitVec.eq_of_getLsbD_eq fun i hi => ?_
  rw [BitVec.getLsbD_append, highByte, lowByte]
  interval_cases i <;> simp

theorem readRegister_tsLatch (h : s.mode = .running) : readRegister 0x18 s = s.tsLatch := by
  rw [readRegister, if_neg (not_not.2 h)]
  rfl

/-- Settles O27. -/
theorem timestampReadTakesBothBytes : Obligations.TimestampReadTakesBothBytes := fun s free =>
  ⟨readTimestamp s, next_hostRead_of_busFree readTimestamp free, rfl, highByte_append_lowByte s.timestamp,
    readRegister_tsLatch (s := readTimestamp s) free.1⟩

-- The run pool view

theorem tableRead_view (n : Slot) (k : Fin 12) (s : State) :
    tableRead 6 (12 * n.val + k.val) s = viewByte (s.run n) k.val := by
  have hn : (Fin.ofNat 32 ((12 * n.val + k.val) / 12) : Slot) = n := by
    rw [show (12 * n.val + k.val) / 12 = n.val by omega]
    exact Fin.ext (Nat.mod_eq_of_lt n.isLt)
  have hk : (12 * n.val + k.val) % 12 = k.val := by omega
  change viewByte (s.run (Fin.ofNat 32 ((12 * n.val + k.val) / 12))) ((12 * n.val + k.val) % 12) = _
  rw [hn, hk]

theorem toNat_byteOf {n : Nat} (h : n < 256) : (byteOf n).toNat = n := by
  rw [byteOf, BitVec.toNat_ofNat]
  exact Nat.mod_eq_of_lt h

theorem runStateCode_eq (st : RunState) :
    runStateCode st = [RunState.free, .pending, .active, .awaiting].idxOf st := by
  cases st <;> rfl

theorem runStateCode_le (st : RunState) : runStateCode st ≤ 3 := by
  cases st <;> decide

theorem tierCode_eq (t : Tier) : 4 * tierCode t = if t = .urgent then 4 else 0 := by
  cases t <;> rfl

theorem bitVal_eq (b : Bool) : bitVal b = if b then 1 else 0 := rfl

/-- A field of a port or queue number with its flag at bit 4, or 0 (10 R181). -/
def placeField {n : Nat} (x : Option (Fin n)) : Nat := (x.map fun i => 16 + 32 * i.val).getD 0

theorem placeField_le {n : Nat} (x : Option (Fin n)) : placeField x ≤ 32 * n := by
  cases x with
  | none => exact Nat.zero_le _
  | some i =>
    change 16 + 32 * i.val ≤ 32 * n
    omega

theorem toNat_viewByte_place (r : Run) : (viewByte r 0).toNat =
    [RunState.free, .pending, .active, .awaiting].idxOf r.state
      + (if r.tier = .urgent then 4 else 0) + (if r.mark then 8 else 0) + placeField r.port := by
  have he : viewByte r 0 =
      byteOf (runStateCode r.state + 4 * tierCode r.tier + 8 * bitVal r.mark + placeField r.port) := by
    simp only [viewByte]
    cases r.port <;> rfl
  have hs := runStateCode_le r.state
  have hp := placeField_le r.port
  have ht : (if r.tier = .urgent then 4 else 0) ≤ 4 := by split <;> omega
  have hm : 8 * bitVal r.mark = if r.mark then 8 else 0 := by cases r.mark <;> rfl
  have hm8 : (if r.mark then 8 else 0) ≤ 8 := by split <;> omega
  rw [he, tierCode_eq, hm, ← runStateCode_eq]
  exact toNat_byteOf (by omega)

theorem toNat_viewByte_resv (r : Run) : (viewByte r 6).toNat = r.retries.toNat + placeField r.resv := by
  have he : viewByte r 6 = byteOf (r.retries.toNat + placeField r.resv) := by
    simp only [viewByte]
    cases r.resv <;> rfl
  have hq := placeField_le r.resv
  have hr : r.retries.toNat < 2 ^ 2 := r.retries.isLt
  rw [he]
  cases hresv : r.resv with
  | none => exact toNat_byteOf (by change r.retries.toNat + 0 < 256; omega)
  | some q => exact toNat_byteOf (by change r.retries.toNat + (16 + 32 * q.val) < 256; omega)

theorem toNat_viewByte_target (r : Run) : (viewByte r 7).toNat =
    r.copy[0].toNat % 8 + 16 * (r.copy[4].toNat / 2 % 8) := by
  have ht : (copyTarget r.copy).val = r.copy[0].toNat % 8 := by simp [copyTarget, bitsOf]
  have hq : (copyQueue r.copy).val = r.copy[4].toNat / 2 % 8 := by simp [copyQueue, bitsOf]
  rw [← ht, ← hq]
  exact toNat_byteOf (by omega)

/-- Settles O29. -/
theorem runPoolViewShowsRuns : Obligations.RunPoolViewShowsRuns := by
  intro n s
  have view (k : Fin 12) := tableRead_view n k s
  refine ⟨fun k h => by rw [view, h, viewByte_freeRun], ?_, ?_, ?_, ?_, view 5, ?_, ?_, view 8, view 9,
    view 10, view 11⟩
  · exact (congrArg BitVec.toNat (view 0)).trans (toNat_viewByte_place _)
  · exact (congrArg BitVec.toNat (view 1)).trans (toNat_byteOf (by omega))
  · exact (congrArg₂ BitVec.append (view 3) (view 2)).trans (highByte_append_lowByte _)
  · exact (congrArg BitVec.toNat (view 4)).trans (toNat_byteOf (by omega))
  · exact (congrArg BitVec.toNat (view 6)).trans (toNat_viewByte_resv _)
  · exact (congrArg BitVec.toNat (view 7)).trans (toNat_viewByte_target _)

-- Record streams

theorem recordBytes_getD (r : Record) (i : Nat) : (recordBytes r).getD i 0 = streamByte r i := by
  match i with
  | 1 =>
    change statusCode r.status = _
    cases h : r.status <;> simp [streamByte, statusCode, h]
  | 0 | 2 | 3 | 4 | 5 | 6 | 7 | 8 | 9 | 10 => rfl
  | i + 11 => rfl

theorem recordBytes_length (r : Record) : (recordBytes r).length = 11 + r.data.length := by
  rw [recordBytes, List.length_append]
  rfl

theorem readHead_of_nil (h : (s.queue s.rqsel).records = []) : readHead s = { s with dataOut := 0 } := by
  simp only [readHead, h]

theorem readHead_of_cons {r : Record} {rest : List Record} (h : (s.queue s.rqsel).records = r :: rest) :
    readHead s = { s with
      dataOut := streamByte r s.headPtr
      headPtr := if s.headPtr < 11 + r.data.length then s.headPtr + 1 else s.headPtr } := by
  simp only [readHead, h, recordBytes_getD, recordBytes_length]

theorem streamByte_of_ge {r : Record} {i : Nat} (h : 11 + r.data.length ≤ i) : streamByte r i = 0 := by
  rw [← recordBytes_getD, List.getD_eq_default _ _ (by rwa [recordBytes_length])]

/-- Settles O45. -/
theorem selectedQueueStreamsItsHeadRecord : Obligations.SelectedQueueStreamsItsHeadRecord := by
  intro v r rest s free
  refine ⟨fun q hq => ?_, fun hge => exec_refused free (if_pos hge), fun hnil => ?_, fun hcons hin => ?_,
    fun hcons hout => ?_⟩
  · have hsel : selectQueue v s = { s with rqsel := q, headPtr := 0 } := by
      simp only [selectQueue, argOf_of_val q hq]
    refine ⟨_, next_hostWrite_of_busFree (selectQueue v) free, hsel, ?_, ?_, ?_⟩
    · rw [hsel, readRegister, if_neg (not_not.2 free.1)]
      exact byteOf_eq_of_toNat hq
    · rw [hsel, readRegister, if_neg (not_not.2 free.1)]
      rfl
    · rw [hsel, readRegister, if_neg (not_not.2 free.1)]
      rfl
  · exact (next_hostRead_of_busFree readHead free).trans (congrArg _ (readHead_of_nil hnil))
  · refine (next_hostRead_of_busFree readHead free).trans (congrArg _ ?_)
    rw [readHead_of_cons hcons, if_pos hin]
  · refine (next_hostRead_of_busFree readHead free).trans (congrArg _ ?_)
    rw [readHead_of_cons hcons, if_neg (by omega), streamByte_of_ge hout]

end Sys2Proof.Machine
end

section
/-! Result-queue commands (06 6.6, 6.7), the notification controller (chapter 7), and the grant that PORT_RESUME
makes (04 4.3-4.5). -/

namespace Sys2Proof.Machine

variable {s : State}

-- Releases and flushes

/-- Settles O44. -/
theorem releaseAndFlushRemoveRecords : Obligations.ReleaseAndFlushRemoveRecords := by
  intro v r rest s free
  refine ⟨fun h => exec_refused free ?_, fun h hne => exec_refused free ?_, fun h he => ?_,
    fun q hq => ?_⟩
  · simp only [refusalCode, h]
  · simp only [refusalCode, h, if_neg hne]
  · refine ⟨_, next_hostWrite_of_busFree (release v) free, ?_⟩
    simp only [release, h, if_pos he]
    exact decideWhere_decided _ _
  · refine ⟨_, (next_hostWrite_of_busFree _ free).trans (congrArg _ (withArg_of_val flush q hq)), ?_⟩
    simp only [flush, queueChanged]
    split
    · exact decideWhere_decided _ _
    · exact decideWhere_decided _ _

-- Notification sources

/-- A sum of 0s and 1s is a count. -/
theorem sum_map_bitVal {α : Type} (c : α → Bool) (l : List α) :
    (l.map fun x => bitVal (c x)).sum = l.countP c := by
  induction l with
  | nil => rfl
  | cons x l ih =>
    rw [List.map_cons, List.sum_cons, ih, List.countP_cons, Nat.add_comm]
    rfl

/-- The sources counted of those that name a group. -/
theorem ite_bitVal {α : Type} [DecidableEq α] (a g : α) (b : Bool) :
    (if a = g then bitVal b else 0) = bitVal (a == g && b) := by
  by_cases h : a = g <;> simp [h, bitVal]

theorem queueSources_of_group (Q : Queue) (g : GroupId) :
    (if Q.group = g then queueSources Q else 0) =
      bitVal (Q.group == g && Q.levelEn && Q.threshold != 0
          && decide (Q.threshold.toNat ≤ Q.records.length))
        + bitVal (Q.group == g && Q.lostEn && Q.lost) + bitVal (Q.group == g && Q.errEn && Q.err) := by
  by_cases h : Q.group = g
  · have level : (Q.level && Q.levelEn) = (Q.levelEn && Q.threshold != 0
        && decide (Q.threshold.toNat ≤ Q.records.length)) := by
      rw [Queue.level, Queue.occupancy, Bool.and_comm, Bool.and_assoc]
    simp only [if_pos h, queueSources, level, beq_iff_eq.2 h, Bool.true_and, Bool.and_comm Q.lost,
      Bool.and_comm Q.err]
  · simp [h, bitVal]

theorem sum_map_add_three {α : Type} (f g h : α → Nat) (l : List α) :
    (l.map fun x => f x + g x + h x).sum = (l.map f).sum + (l.map g).sum + (l.map h).sum := by
  rw [List.sum_map_add, List.sum_map_add]

theorem activeSources_eq_feeding (s : State) (g : GroupId) : activeSources s g = feeding s g := by
  have miss (n : Source) : ((s.trigger n).group == g && missActive (s.trigger n)) =
      ((s.trigger n).group == g && (s.trigger n).missNotify && (s.trigger n).missLatch) := by
    rw [missActive, Bool.and_comm (s.trigger n).missLatch, Bool.and_assoc]
  have halt (p : Port) : ((s.port p).group == g && haltActive (s.port p)) =
      ((s.port p).group == g && (s.port p).haltNotify && (s.port p).state == .halted) := by
    rw [haltActive, Bool.and_comm ((s.port p).state == .halted), Bool.and_assoc]
  simp only [activeSources, feeding, queueSources_of_group, sum_map_add_three, ite_bitVal,
    sum_map_bitVal, miss, halt]

theorem feeding_le (s : State) (g : GroupId) : feeding s g ≤ 48 := by
  have count {α : Type} (c : α → Bool) {l : List α} {n : Nat} (h : l.length = n) : l.countP c ≤ n :=
    h ▸ List.countP_le_length
  have hq (c : QueueId → Bool) : allQueues.countP c ≤ 8 := count c (by decide)
  have hn (c : Source → Bool) : allSources.countP c ≤ 20 := count c (by decide)
  have hp (c : Port → Bool) : allPorts.countP c ≤ 4 := count c (by decide)
  simp only [feeding]
  refine le_trans (add_le_add (add_le_add (add_le_add (add_le_add (hq _) (hq _)) (hq _)) (hn _)) (hp _)) ?_
  decide

theorem tableRead_activeSources (s : State) (g : GroupId) :
    (tableRead 5 (4 * g.val + 2) s).toNat = activeSources s g := by
  have he : tableRead 5 (4 * g.val + 2) s = groupByte s g 2 := by
    change groupByte s (Fin.ofNat 8 ((4 * g.val + (2 : Fin 4).val) / 4))
      ((4 * g.val + (2 : Fin 4).val) % 4) = _
    rw [entry_of_short_index, byte_of_short_index]
    rfl
  rw [he]
  refine toNat_byteOf ?_
  rw [activeSources_eq_feeding]
  exact lt_of_le_of_lt (feeding_le s g) (by decide)

theorem inService_eq_false_iff (s : State) (g : GroupId) :
    inService s g = false ↔ ∀ e, e ∈ s.stack → e.group ≠ g := by
  simp [inService]

theorem highInService_eq_false_iff (s : State) :
    highInService s = false ↔ ∀ e, e ∈ s.stack → e.tier ≠ .high := by
  simp [highInService]

/-- The four conditions of 07 R140. -/
theorem claimable_iff (s : State) (g : GroupId) : claimable s g = true ↔
    pendingGroup s g = true ∧ (∀ e, e ∈ s.stack → e.group ≠ g) ∧ s.nen = true
      ∧ (((s.group g).tier = .high ∧ ∀ e, e ∈ s.stack → e.tier ≠ .high)
        ∨ ((s.group g).tier = .low ∧ s.nlow = true ∧ s.stack = [])) := by
  rw [← inService_eq_false_iff, ← highInService_eq_false_iff, claimable]
  cases (s.group g).tier <;> simp [and_assoc]

theorem statusByte_irqBit (s : State) : (statusByte s).getLsbD 1 = irqState s := by
  rw [statusByte]
  cases irqState s <;> cases anyHalted s <;> cases s.fault != .none <;> rfl

theorem readRegister_status (h : s.mode = .running) : readRegister 0x02 s = statusByte s := by
  rw [readRegister, if_neg (not_not.2 h)]
  rfl

/-- Settles O46. -/
theorem claimableByFourConditions : Obligations.ClaimableByFourConditions := by
  intro g s
  refine ⟨activeSources_eq_feeding s g, ?_, ?_, claimable_iff s g, fun running => ?_, ?_⟩
  · rw [tableRead_activeSources, activeSources_eq_feeding]
  · rw [pendingGroup, activeSources_eq_feeding, Bool.and_eq_true, decide_eq_true_eq]
  · rw [readRegister_status running, statusByte_irqBit, irqState_iff]
  · simp [irqPin]

-- NCLAIM

theorem bestEntry_of_some {g : GroupId} (h : bestClaimable s = some g) :
    bestEntry s = some { group := g, tier := (s.group g).tier } := by
  rw [bestEntry, h, Option.map_some]

theorem bestEntry_of_none (h : bestClaimable s = none) : bestEntry s = none := by
  rw [bestEntry, h, Option.map_none]

theorem claimValue_some (g : GroupId) (t : GroupTier) :
    claimValue (some { group := g, tier := t }) =
      BitVec.ofNat 8 (g.val + if t = .high then 8 else 0) := by
  cases t <;> rfl

theorem claimable_of_inService {g : GroupId} (h : inService s g = true) : claimable s g = false := by
  simp [claimable, h]

/-- Settles O48. -/
theorem nclaimReadClaimsBestGroup : Obligations.NclaimReadClaimsBestGroup := by
  intro g e s running
  have start (h : s.claim = .closed) : exec (.nclaimRead .start) s = .next (claimStart s) :=
    next_hostRead_of_busFree claimStart ⟨running, h⟩
  have whole (h : s.claim = .closed) :
      exec (.nclaimRead .whole) s = .next (claimEdge (claimStart s)) :=
    next_hostRead_of_busFree (fun t => claimEdge (claimStart t)) ⟨running, h⟩
  have edge : exec (.nclaimRead .edge) s = .next (claimEdge s) :=
    congrArg Host.Outcome.next (whenRunning_of_running claimEdge running)
  refine ⟨fun hc hb => ?_, fun hc hb => ⟨?_, ?_⟩, fun hc => ?_, fun hc => ?_⟩
  · rw [whole hc, start hc]
    simp only [claimEdge, claimStart, bestEntry_of_none hb, claimValue, and_true]
    rw [← hc]
  · refine ⟨_, whole hc, ?_, claimable_of_inService ?_⟩
    · simp only [claimEdge, claimStart, bestEntry_of_some hb, claimValue_some]
      rw [← hc]
    · simp [inService, claimEdge, claimStart, bestEntry_of_some hb]
  · rw [start hc]
    simp only [claimStart, bestEntry_of_some hb, claimValue_some]
  · rw [edge]
    simp only [claimEdge, hc]
  · rw [edge]
    simp only [claimEdge, hc]

-- One port decides

theorem filter_allPorts_eq (p : Port) (c : Port → Bool) :
    (allPorts.filter fun x => c x && x == p) = if c p then [p] else [] := by
  split
  · next h =>
    have : (allPorts.filter fun x => c x && x == p) = allPorts.filter (· == p) :=
      List.filter_congr fun x _ => by
        by_cases e : x = p
        · rw [e, h, Bool.true_and]
        · simp [e]
    rw [this]
    fin_cases p <;> rfl
  · next h =>
    rw [List.filter_eq_nil_iff]
    intro x _
    rw [Bool.and_eq_true, beq_iff_eq]
    rintro ⟨hx, rfl⟩
    exact h hx

theorem decideWhere_port (p : Port) (s : State) : decideWhere (fun x => x == p) s = decision s p := by
  rw [decideWhere, filter_allPorts_eq p fun x => (s.port x).state == .idle]
  split
  · rw [drawOrder_of_le_one s (by simp)]
    exact grantDecision_eq p s
  · next h =>
    rw [drawOrder_of_le_one s (by simp)]
    rw [decision, if_neg (by simpa using h)]
    rfl

/-- A grant sees nothing of the port's state. -/
theorem granted_setPort_state (s : State) (p : Port) (st : PortState) (t : Tier) (n : Slot) (c : Bool) :
    granted (s.setPort p { s.port p with state := st }) p t n c = granted s p t n c := by
  cases t with
  | urgent =>
    simp only [granted, State.setPort_port_self, State.setPort_run, State.setPort_queue]
    simp only [State.setPort, Vector.set_set, PortRec.frameStarted] <;> rfl
  | normal =>
    simp only [granted, State.setPort_port_self, State.setPort_run, State.setPort_queue]
    simp only [State.setPort, Vector.set_set, PortRec.frameStarted] <;> rfl

/-- Settles O43. -/
theorem portResumeGrantsByRule : Obligations.PortResumeGrantsByRule := by
  intro p a b s free harg
  have hexec : exec .portResume s = .next (resumePort p s) :=
    (next_hostWrite_of_busFree _ free).trans (congrArg _ (withArg_of_val resumePort p harg))
  have resumed (hh : (s.port p).state = .halted) : resumePort p s =
      decision (s.setPort p { s.port p with state := if (s.port p).enable then .idle else .off }) p := by
    simp only [resumePort, if_pos hh, decideWhere_port]
  have idle (hh : (s.port p).state = .halted) (he : (s.port p).enable = true) : resumePort p s =
      decision (s.setPort p { s.port p with state := .idle }) p := by
    rw [resumed hh, he, if_pos rfl]
  have elig : eligible (s.setPort p { s.port p with state := .idle }) = eligible s := rfl
  rw [hexec]
  refine ⟨fun h => ?_, fun hh he => ?_, fun hh he hu hn => ?_, fun hh he hu hc => ?_,
    fun hh he hn hc => ?_⟩
  · rw [resumePort, if_neg h]
  · rw [resumed hh, he, decision, State.setPort_port_self, if_neg (by simp), if_neg (by simp)]
  · rw [idle hh he]
    simp only [decision, State.setPort_port_self, elig, hu, hn, if_true]
  · rw [idle hh he]
    cases hn : (s.port p).normal.find? (eligible s) with
    | none =>
      simp only [decision, State.setPort_port_self, elig, hu, hn, if_true, granted_setPort_state]
      rfl
    | some b' =>
      have low : ¬((s.port p).starveLimit ≠ 0 ∧ (s.port p).starveLimit ≤ (s.port p).starveCount) := by
        rintro ⟨h0, hle⟩
        obtain h | h | h := hc
        · rw [hn] at h; cases h
        · exact h0 h
        · exact absurd hle (BitVec.not_le.2 h)
      simp only [decision, State.setPort_port_self, elig, hu, hn, if_true, if_neg low,
        granted_setPort_state]
      rfl
  · rw [idle hh he]
    cases hu : (s.port p).urgent.find? (eligible s) with
    | none =>
      simp only [decision, State.setPort_port_self, elig, hu, hn, if_true, granted_setPort_state]
    | some a' =>
      have high : (s.port p).starveLimit ≠ 0 ∧ (s.port p).starveLimit ≤ (s.port p).starveCount := by
        obtain h | h := hc
        · rw [hu] at h; cases h
        · exact h
      simp only [decision, State.setPort_port_self, elig, hu, hn, if_true, if_pos high,
        granted_setPort_state]

end Sys2Proof.Machine
end

section
/-! Ticks, part clocks and counts (08 8.1-8.4, 11 R186). -/

namespace Sys2Proof.Machine

-- Ticks and part clocks

/-- Settles O23: the tick comes after the due expiries. -/
theorem tickAdvancesEveryCount : Obligations.TickAdvancesEveryCount := fun s running =>
  ⟨settleDue s, (settleDue_settled running).1, reachTick s,
    congrArg Host.Outcome.next (whenRunning_of_running reachTick running), takeTick_ticked _ _⟩

theorem refuse_irqSample (c : FaultCode) (s : State) : (refuse c s).irqSample = s.irqSample := by
  unfold refuse
  split <;> rfl

theorem Act.irqSample {s t : State} (h : Act s t) : t.irqSample = s.irqSample := by
  cases h with
  | engine h => rw [h.frame]
  | refused c => exact refuse_irqSample c s
  | closed => rfl
  | clearedFault => rfl
  | bus m tsel tidx rqsel ptr out latch => rfl

theorem Acts.irqSample {s t : State} (h : Acts s t) : t.irqSample = s.irqSample :=
  h.keeps (R := fun s t => t.irqSample = s.irqSample) (fun _ => rfl) (fun h h' => h'.trans h)
    Act.irqSample

/-- A host write of a part that only this item sees. -/
theorem hostWrite_irqSample {f : State → State} (hf : ∀ s, (f s).irqSample = s.irqSample) (s : State) :
    (hostWrite f s).irqSample = s.irqSample := by
  unfold hostWrite
  split
  · exact hf _
  · rfl

theorem endService_irqSample (v : Byte) (s : State) : (endService v s).irqSample = s.irqSample := by
  unfold endService
  split
  · exact refuse_irqSample _ s
  · split
    · exact refuse_irqSample _ s
    · split
      · rfl
      · exact refuse_irqSample _ s

theorem claimEdge_irqSample (s : State) : (claimEdge s).irqSample = s.irqSample := by
  unfold claimEdge
  split <;> rfl

theorem nclaimRead_irqSample {part : ReadPart} {s t : State} (h : exec (.nclaimRead part) s = .next t) :
    t.irqSample = s.irqSample := by
  have read (f : State → State) (hf : ∀ s, (f s).irqSample = s.irqSample) (s : State) :
      (hostRead f s).irqSample = s.irqSample := by
    unfold hostRead
    split
    · exact hf _
    · rfl
  cases part with
  | whole =>
    obtain rfl := Host.Outcome.next.inj h
    exact read _ (fun s => claimEdge_irqSample (claimStart s)) s
  | start =>
    obtain rfl := Host.Outcome.next.inj h
    exact read claimStart (fun _ => rfl) s
  | edge =>
    obtain rfl := Host.Outcome.next.inj h
    change (whenRunning claimEdge s).irqSample = s.irqSample
    unfold whenRunning
    split
    · exact claimEdge_irqSample s
    · rfl

/-- IRQ# moves at part clocks, ticks and the end of start-up alone (log 22). -/
theorem exec_irqSample {c : Instr} {s t : State} (h : exec c s = .next t) (htick : c ≠ .tick)
    (hstart : c ≠ .startUpEnd) (habort : ∀ k, c ≠ .portAbort (k + 1))
    (hreset : ∀ k, c ≠ .portReset (k + 1)) : t.irqSample = s.irqSample := by
  cases hc : setApart c with
  | false => exact (exec_acts h hc).irqSample
  | true =>
    cases c with
    | tick => exact absurd rfl htick
    | startUpEnd => exact absurd rfl hstart
    | tdataWrite v =>
      obtain ⟨-, -, -, -, -, -, irq, -⟩ := tdataWrite_keeps h
      exact irq
    | nctrlWrite v =>
      obtain rfl := Host.Outcome.next.inj h
      exact hostWrite_irqSample (f := writeNctrl v) (fun _ => rfl) s
    | registerWrite reg v =>
      obtain rfl := Host.Outcome.next.inj h
      exact hostWrite_irqSample (f := storeRegister reg v) (fun s => by cases reg <;> rfl) s
    | nendWrite v =>
      obtain rfl := Host.Outcome.next.inj h
      exact hostWrite_irqSample (endService_irqSample v) s
    | nclaimRead part => exact nclaimRead_irqSample h
    | engineReset =>
      obtain rfl := Host.Outcome.next.inj h
      exact hostWrite_irqSample (f := engineReset) (fun _ => rfl) s
    | portAbort k =>
      cases k with
      | zero => exact ((portAbort_acts h).2 rfl).irqSample
      | succ k => exact absurd rfl (habort k)
    | portReset k =>
      cases k with
      | zero =>
        obtain ⟨u, -, hu, he⟩ := portReset_acts h
        obtain rfl | ⟨p, P, -, rfl⟩ := he
        · exact (hu rfl).irqSample
        · exact (hu rfl).irqSample
      | succ k => exact absurd rfl (hreset k)
    | _ => cases hc

/-- Settles O24: the idle step is the part clock, and IRQ# is sampled there alone. -/
theorem idleStepIsOnePartClock : Obligations.IdleStepIsOnePartClock := by
  have idle (s : State) (h : s.pending = []) : step s = .next (whenRunning partClock s) := by
    rw [step, h]
  refine ⟨fun s h hm => ?_, fun s h hm => ?_, fun c s t h => exec_irqSample h⟩
  · rw [idle s h, whenRunning_of_not_running _ hm]
  · exact ⟨partClock s, (idle s h).trans (congrArg _ (whenRunning_of_running _ hm)), (partClock_spec hm).1⟩

-- Counts that are not due stand through the expiries

/-- The hold-off of line `n`, where it is not due, stands from `s` to `t`. -/
def HoldOffStands (n : LineId) (s t : State) : Prop :=
  (s.line n).holdOff ≠ some 0 → t.line n = s.line n

/-- The wait or gap of port `p`, where it is not due, stands from `s` to `t`. -/
def IntervalStands (p : Port) (s t : State) : Prop :=
  (s.port p).state ≠ .idle → (s.port p).interval ≠ some 0 →
    (t.port p).state = (s.port p).state ∧ (t.port p).interval = (s.port p).interval

theorem HoldOffStands.trans {n : LineId} {s t u : State} (h : HoldOffStands n s t)
    (h' : HoldOffStands n t u) : HoldOffStands n s u := fun hs => by
  have ht := h hs
  exact (h' (by rwa [ht])).trans ht

theorem HoldOffStands.of_lines {n : LineId} {s t : State} (h : t.lines = s.lines) :
    HoldOffStands n s t := fun _ => by rw [State.line, State.line, h]

theorem IntervalStands.trans {p : Port} {s t u : State} (h : IntervalStands p s t)
    (h' : IntervalStands p t u) : IntervalStands p s u := fun hi hs => by
  obtain ⟨state, interval⟩ := h hi hs
  obtain ⟨state', interval'⟩ := h' (by rwa [state]) (by rwa [interval])
  exact ⟨state'.trans state, interval'.trans interval⟩

theorem IntervalStands.of_port {p : Port} {s t : State} (h : t.port p = s.port p) :
    IntervalStands p s t := fun _ _ => by rw [h]; exact ⟨rfl, rfl⟩

theorem IntervalStands.setPort {p q : Port} {s u : State} (h : p ≠ q) (hu : u.port p = s.port p)
    (P : PortRec) : IntervalStands p s (u.setPort q P) :=
  .of_port ((State.setPort_port_of_ne u h P).trans hu)

theorem IntervalStands.queuedRun (p p' : Port) (s : State) (n : Slot) (r : Run) :
    IntervalStands p s (queuedRun s p' n r) := fun _ _ => by
  by_cases h : p = p'
  · subst h
    rw [Machine.queuedRun, State.setPort_port_self]
    cases r.tier <;> exact ⟨rfl, rfl⟩
  · rw [Machine.queuedRun, State.setPort_port_of_ne _ h]
    exact ⟨rfl, rfl⟩

theorem decideWhere_intervalStands (led : Port → Bool) (p : Port) (s : State) :
    IntervalStands p s (decideWhere led s) := fun hi _ => by
  obtain h | ⟨idle, -⟩ := (decideWhere_decided led s).effects.2.2.1 p
  · rw [h]; exact ⟨rfl, rfl⟩
  · exact absurd idle hi

theorem decideWhere_lines (led : Port → Bool) (s : State) : (decideWhere led s).lines = s.lines := by
  rw [(decideWhere_decided led s).effects.1]

/-- A trigger event touches no line and no port's count. -/
theorem triggerEvent_stands (src : Source) (s : State) :
    (triggerEvent src s).lines = s.lines ∧ ∀ p, IntervalStands p s (triggerEvent src s) := by
  obtain ⟨-, h⟩ | ⟨-, -, h⟩ | ⟨-, -, -, h⟩ | ⟨-, -, n, -, -, h⟩ := triggerEvent_cases src s
  · rw [h]; exact ⟨rfl, fun p => .of_port rfl⟩
  · rw [h]; exact ⟨rfl, fun p => .of_port rfl⟩
  · rw [h]; exact ⟨rfl, fun p => .of_port rfl⟩
  · rw [h]
    cases valid : copyValid s (fetchCopy s.desc (s.trigger src).firstDesc) with
    | false =>
      rw [startRun_of_invalid n valid]
      exact ⟨rfl, fun p => .of_port rfl⟩
    | true =>
      rw [startRun_of_valid n valid, decideWhere_lines]
      refine ⟨rfl, fun p => .trans ?_ (decideWhere_intervalStands _ p _)⟩
      exact IntervalStands.queuedRun p _ (oneMore s src) n _

/-- An end at a step's end touches no other port's count. -/
theorem endAtStep_stands {p q : Port} (h : p ≠ q) (n : Slot) (st : Status) (s : State) :
    IntervalStands p s (endAtStep q n st s) := by
  rw [endAtStep_eq]
  refine .trans ?_ (decideWhere_intervalStands _ p _)
  exact .setPort h rfl _

theorem endAtStep_lines (q : Port) (n : Slot) (st : Status) (s : State) :
    (endAtStep q n st s).lines = s.lines := by
  rw [endAtStep_eq, decideWhere_lines]
  rfl

theorem requeue_stands {p q : Port} (h : p ≠ q) (s : State) (n : Slot) (r : Run) (P : PortRec) :
    IntervalStands p s ((queuedRun s q n r).setPort q P) :=
  (IntervalStands.queuedRun p q s n r).trans (.setPort h rfl P)

/-- A ready timeout's outcome touches no line and no other port's count. -/
theorem timeoutOutcome_stands (q : Port) (n : Slot) (s : State) :
    (timeoutOutcome q n s).lines = s.lines
      ∧ ∀ p, p ≠ q → IntervalStands p s (timeoutOutcome q n s) := by
  unfold timeoutOutcome
  split
  · exact ⟨endAtStep_lines q n _ s, fun p h => endAtStep_stands h n _ s⟩
  · split
    · obtain ⟨qs, -, ret⟩ := returnResv_settles n s
      rw [retryStep_eq ret, decideWhere_lines]
      exact ⟨rfl, fun p h => (requeue_stands h (s.results qs s.headPtr) n _ _).trans
        (decideWhere_intervalStands _ p _)⟩
    · cases halt : (s.port q).haltOnError with
      | true =>
        rw [failStep_of_halt n halt]
        exact ⟨rfl, fun p h => .setPort h rfl _⟩
      | false =>
        rw [failStep, if_neg (by simp [halt])]
        exact ⟨endAtStep_lines q n _ s, fun p h => endAtStep_stands h n _ s⟩

/-- A gap's end touches no line and no other port's count. -/
theorem gapOver_stands (q : Port) (s : State) :
    (gapOver q s).lines = s.lines ∧ ∀ p, p ≠ q → IntervalStands p s (gapOver q s) := by
  cases att : (s.port q).attached with
  | none =>
    rw [gapOver_of_none att, leaveGap_eq]
    exact ⟨rfl, fun p h => .setPort h rfl _⟩
  | some n =>
    cases mark : (s.run n).mark with
    | false =>
      rw [gapOver_of_unmarked att mark, startFrame_eq]
      exact ⟨rfl, fun p h => .setPort h rfl _⟩
    | true =>
      rw [gapOver_of_marked att mark]
      exact ⟨rfl, fun p h => .setPort h rfl _⟩

theorem readyTimesOut_stands (q : Port) (s : State) :
    (readyTimesOut q s).lines = s.lines ∧ ∀ p, IntervalStands p s (readyTimesOut q s) := by
  unfold readyTimesOut
  split
  · next n att =>
    split
    · next due =>
      obtain ⟨lines, others⟩ := timeoutOutcome_stands q n s
      refine ⟨lines, fun p => ?_⟩
      by_cases h : p = q
      · exact fun _ hs => absurd (h ▸ due.2) hs
      · exact others p h
    · exact ⟨rfl, fun p => .of_port rfl⟩
  · exact ⟨rfl, fun p => .of_port rfl⟩

theorem gapExpires_stands (q : Port) (s : State) :
    (gapExpires q s).lines = s.lines ∧ ∀ p, IntervalStands p s (gapExpires q s) := by
  unfold gapExpires
  split
  · next due =>
    obtain ⟨lines, others⟩ := gapOver_stands q s
    refine ⟨(decideWhere_lines _ _).trans lines, fun p => ?_⟩
    by_cases h : p = q
    · exact fun _ hs => absurd (h ▸ due.2) hs
    · exact (others p h).trans (decideWhere_intervalStands _ p _)
  · exact ⟨rfl, fun p => .of_port rfl⟩

theorem timerExpires_stands (k : TimerId) (s : State) :
    (timerExpires k s).lines = s.lines ∧ ∀ p, IntervalStands p s (timerExpires k s) := by
  by_cases h : (s.timer k).running = true ∧ (s.timer k).count = 0
  · rw [timerExpires_of_due h]
    exact triggerEvent_stands _ s
  · rw [timerExpires_of_not_due h]
    exact ⟨rfl, fun p => .of_port rfl⟩

/-- A count that is not due stands through an expiry. -/
theorem takeExpiry_stands (e : Expiry) (s : State) :
    (∀ n, HoldOffStands n s (takeExpiry e s)) ∧ ∀ p, IntervalStands p s (takeExpiry e s) := by
  have of_lines {t : State} (h : t.lines = s.lines ∧ ∀ p, IntervalStands p s t) :
      (∀ n, HoldOffStands n s t) ∧ ∀ p, IntervalStands p s t := ⟨fun n => .of_lines h.1, h.2⟩
  cases e with
  | holdOff m =>
    simp only [takeExpiry, holdOffOver]
    split
    · next due =>
      refine ⟨fun n hs => ?_, fun p => .of_port rfl⟩
      by_cases h : n = m
      · exact absurd (h ▸ due) hs
      · exact State.setLine_line_of_ne s h _
    · exact of_lines ⟨rfl, fun p => .of_port rfl⟩
  | timer k => exact of_lines (timerExpires_stands k s)
  | readyTimeout q => exact of_lines (readyTimesOut_stands q s)
  | gap q => exact of_lines (gapExpires_stands q s)

theorem foldl_takeExpiry_stands (l : List Expiry) (s : State) :
    (∀ n, HoldOffStands n s (l.foldl (fun st e => takeExpiry e st) s))
      ∧ ∀ p, IntervalStands p s (l.foldl (fun st e => takeExpiry e st) s) := by
  induction l generalizing s with
  | nil => exact ⟨fun n => .of_lines rfl, fun p => .of_port rfl⟩
  | cons e l ih =>
    obtain ⟨lines, ports⟩ := takeExpiry_stands e s
    obtain ⟨lines', ports'⟩ := ih (takeExpiry e s)
    exact ⟨fun n => (lines n).trans (lines' n), fun p => (ports p).trans (ports' p)⟩

/-- Every count that is not due stands through the expiries taken before a tick. -/
theorem settleDue_stands (s : State) :
    (∀ n, HoldOffStands n s (settleDue s)) ∧ ∀ p, IntervalStands p s (settleDue s) := by
  obtain ⟨k, hk, -⟩ := (drawOrder_spec (dueExpiries s) s).2
  obtain ⟨lines, ports⟩ := foldl_takeExpiry_stands (drawOrder (dueExpiries s) s).1
    (drawOrder (dueExpiries s) s).2
  rw [hk] at lines ports
  unfold settleDue
  dsimp only
  rw [hk]
  exact ⟨lines, ports⟩

-- Counts of N ticks

theorem PortRec.passing_state (P : PortRec) (s : State) (k : Nat) :
    (P.passing s k).state = P.state ∧ (P.passing s k).interval = P.interval := by
  unfold PortRec.passing
  split <;> exact ⟨rfl, rfl⟩

/-- One tick: the timestamp rises, and every count that is not due has one tick fewer. -/
theorem reachTick_counts {s : State} (running : s.mode = .running) :
    (reachTick s).mode = .running ∧ (reachTick s).pending = s.pending
      ∧ (reachTick s).timestamp = s.timestamp + 1
      ∧ (∀ n m, (s.line n).holdOff = some (m + 1) → ((reachTick s).line n).holdOff = some m)
      ∧ ∀ p m, (s.port p).interval = some (m + 1) → ((s.port p).state = .await ∨ (s.port p).state = .gap) →
          ((reachTick s).port p).interval = some m
            ∧ ((reachTick s).port p).state = (s.port p).state := by
  have frame := (settleDue_events s).keeps.frame
  obtain ⟨frame', -, lines, ports, -⟩ := takeTick_ticked
    ((settleDue s).tickDiv.toNat + 1 - (settleDue s).clockCount) (settleDue s)
  obtain ⟨holdOffs, intervals⟩ := settleDue_stands s
  refine ⟨?_, ?_, ?_, fun n m h => ?_, fun p m h hstate => ?_⟩
  · rw [reachTick, frame', frame]; exact running
  · rw [reachTick, frame', frame]
  · rw [reachTick, frame', frame]
  · rw [reachTick, lines n, holdOffs n (by rw [h]; simp), h]
    rfl
  · obtain ⟨state, interval⟩ := intervals p (by obtain h | h := hstate <;> simp [h]) (by rw [h]; simp)
    obtain ⟨pass, passInterval⟩ := PortRec.passing_state ((settleDue s).port p) (settleDue s)
      ((settleDue s).tickDiv.toNat + 1 - (settleDue s).clockCount)
    rw [reachTick, ports p]
    refine ⟨?_, pass.trans state⟩
    rw [if_pos (state ▸ hstate), interval, h]
    rfl

theorem step_tick {s : State} {rest : List Instr} (running : s.mode = .running)
    (h : s.pending = .tick :: rest) : step s = .next (reachTick { s with pending := rest }) := by
  rw [step, h]
  exact congrArg Host.Outcome.next (whenRunning_of_running reachTick (s := { s with pending := rest }) running)

theorem run_of_next {M : Host.Core} {k : Nat} {s t : M.State} (h : M.step s = .next t) :
    M.run (k + 1) s = M.run k t := by
  rw [Host.Core.run, h]

theorem withPending_self {s : State} {l : List Instr} (h : s.pending = l) :
    { s with pending := l } = s := by
  rw [← h]

/-- Settles O25, by induction on the ticks. -/
theorem countsExpireAtTheirTick : Obligations.CountsExpireAtTheirTick := by
  intro N k n p s running hk
  induction k generalizing N s with
  | zero =>
    refine ⟨_, rfl, rfl, ?_, fun h => h, fun h _ => h⟩
    simp
  | succ k ih =>
    obtain ⟨M, rfl⟩ : ∃ M, N = M + 1 := ⟨N - 1, by omega⟩
    obtain ⟨running', pending, timestamp, holdOffs, intervals⟩ :=
      reachTick_counts (s := { s with pending := List.replicate k .tick }) running
    obtain ⟨t, hrun, hpend, htime, hhold, hint⟩ :=
      ih M (reachTick { s with pending := List.replicate k .tick }) running' (by omega)
    rw [withPending_self pending] at hrun
    refine ⟨t, ?_, hpend, ?_, fun h => ?_, fun h hstate => ?_⟩
    · have first : step { s with pending := List.replicate (k + 1) .tick } =
          .next (reachTick { s with pending := List.replicate k .tick }) := step_tick running rfl
      exact Eq.trans (run_of_next (M := core) (k := k) first) hrun
    · rw [htime, timestamp, BitVec.add_assoc, Nat.add_comm k 1, BitVec.ofNat_add]
      rfl
    · rw [Nat.add_sub_add_right]
      exact hhold (holdOffs n M h)
    · obtain ⟨interval, state⟩ := intervals p M h hstate
      rw [Nat.add_sub_add_right]
      exact hint interval (state ▸ hstate)

end Sys2Proof.Machine
end

section
/-! Trigger events by their commands (chapter 1), and what the window reads (09 9.2, 10 10.5, 10.6). -/

namespace Sys2Proof.Machine

variable {s : State}

-- Trigger events

theorem decision_setTimer (k : TimerId) (T : Timer) (s : State) (p : Port) :
    decision (s.setTimer k T) p = (decision s p).setTimer k T := by
  have port : (s.setTimer k T).port p = s.port p := rfl
  have elig : eligible (s.setTimer k T) = eligible s := rfl
  simp only [decision, port, elig]
  split
  · cases (s.port p).urgent.find? (eligible s) with
    | none => cases (s.port p).normal.find? (eligible s) <;> rfl
    | some a =>
      cases (s.port p).normal.find? (eligible s) with
      | none => rfl
      | some b =>
        dsimp only
        split <;> rfl
  · rfl

/-- The decisions do not see the timers. -/
theorem decideWhere_setTimer (led : Port → Bool) (k : TimerId) (T : Timer) (s : State) :
    decideWhere led (s.setTimer k T) = (decideWhere led s).setTimer k T := by
  have fold (l : List Port) (u : State) :
      l.foldl (fun st p => grantDecision p st) (u.setTimer k T) =
        (l.foldl (fun st p => grantDecision p st) u).setTimer k T := by
    induction l generalizing u with
    | nil => rfl
    | cons p l ih =>
      rw [List.foldl_cons, List.foldl_cons, grantDecision_eq, decision_setTimer, ih, grantDecision_eq]
  have draw (l : List Port) : drawOrder l (s.setTimer k T) =
      ((drawOrder l s).1, (drawOrder l s).2.setTimer k T) := by
    unfold drawOrder
    split <;> rfl
  unfold decideWhere
  dsimp only
  rw [show (allPorts.filter fun p => ((s.setTimer k T).port p).state == .idle && led p) =
    allPorts.filter fun p => (s.port p).state == .idle && led p from rfl, draw, fold]

/-- A trigger event does not see the timers. -/
theorem triggerEvent_setTimer (src : Source) (k : TimerId) (T : Timer) (s : State) :
    triggerEvent src (s.setTimer k T) = (triggerEvent src s).setTimer k T := by
  have start (n : Slot) : startRun src n (s.setTimer k T) = (startRun src n s).setTimer k T := by
    cases valid : copyValid s (fetchCopy s.desc (s.trigger src).firstDesc) with
    | false =>
      rw [startRun_of_invalid n valid, startRun_of_invalid (s := s.setTimer k T) n valid]
      rfl
    | true =>
      rw [startRun_of_valid n valid, startRun_of_valid (s := s.setTimer k T) n valid,
        ← decideWhere_setTimer]
      rfl
  have lowest : lowestFree (s.setTimer k T) = lowestFree s := rfl
  simp only [triggerEvent, State.setTimer_trigger, lowest, start]
  split
  · rfl
  · split
    · rfl
    · split <;> rfl

theorem triggerEvent_timer (src : Source) (k : TimerId) (s : State) :
    (triggerEvent src s).timer k = s.timer k := by
  have h := triggerEvent_setTimer src k (s.timer k) s
  rw [State.setTimer_self] at h
  rw [h, State.setTimer_timer_self]

theorem expiredTimer_eq (T : Timer) :
    expiredTimer T = if T.mode = .periodic ∧ T.reload ≠ 0 then { T with count := T.reload }
      else { T with running := false, count := 0 } := by
  unfold expiredTimer
  cases hmode : T.mode with
  | oneShot => simp
  | periodic => by_cases h : T.reload = 0 <;> simp [h]

/-- A command that is an event is that event on the line or timer that it leaves. -/
theorem exec_of_event {c : Instr} {src : Source} {b : State} (h : eventOf c s = some (src, b)) :
    exec c s = .next (triggerEvent src b)
      ∧ b = { s with lines := b.lines, timers := b.timers } := by
  cases c with
  | swtrigWrite v =>
    simp only [eventOf] at h
    split at h
    · next hv =>
      split at h
      · next free =>
        cases h
        refine ⟨(next_hostWrite_of_busFree (softwareTrigger v) free).trans ?_, rfl⟩
        rw [softwareTrigger, argOf_of_val ⟨v.toNat, hv⟩ rfl]
        rfl
      · cases h
    · cases h
  | triggerLineEdge n level =>
    change (if s.mode = .running ∧ (s.line n).ref ≠ level
        ∧ selectedEdge (s.trigger (lineSource n)).edge level = true ∧ (s.line n).holdOff = none then
      some (lineSource n, s.setLine n
        { pin := level, ref := level,
          holdOff := if (s.trigger (lineSource n)).holdOffTicks = 0 then none
                     else some (s.trigger (lineSource n)).holdOffTicks.toNat })
      else none) = some (src, b) at h
    split at h
    · next hc =>
      obtain ⟨running, href, hsel, hhold⟩ := hc
      cases h
      refine ⟨?_, rfl⟩
      have accepted := lineSees_of_accepted (s := s.setLine n { s.line n with pin := level }) (n := n)
        (level := level) (by simpa using href) hsel (by simpa using hhold)
      rw [exec_lineEdge_of_running n level running, accepted]
      simp [startedHoldOff_eq]
    · cases h
  | intervalTimerExpiry k =>
    simp only [eventOf] at h
    split at h
    · next hc =>
      obtain ⟨running, hdue⟩ := hc
      cases h
      refine ⟨?_, rfl⟩
      change Host.Outcome.next (whenRunning (timerExpires k) s) = _
      rw [whenRunning_of_running _ running, timerExpires_of_due hdue, triggerEvent_timer,
        expiredTimer_eq, ← triggerEvent_setTimer]
      rfl
    · cases h
  | _ => cases h

theorem triggerEvent_of_limit {src : Source} (he : (s.trigger src).enable = true)
    (hl : (s.trigger src).live = (s.trigger src).limit.toNat) :
    triggerEvent src s = missed s src .limit := by
  simp only [triggerEvent, he, hl, Bool.not_true, Bool.false_eq_true, if_false, if_true,
    miss_eq_missed]

theorem triggerEvent_of_pool {src : Source} (he : (s.trigger src).enable = true)
    (hl : (s.trigger src).live ≠ (s.trigger src).limit.toNat) (hp : ∀ n, (s.run n).state ≠ .free) :
    triggerEvent src s = missed s src .pool := by
  have hnone : lowestFree s = none := by simpa [lowestFree, allSlots] using hp
  simp only [triggerEvent, he, hl, hnone, Bool.not_true, Bool.false_eq_true, if_false, miss_eq_missed]

/-- The lowest FREE slot is taken (03 R40). -/
theorem triggerEvent_of_free {src : Source} {n : Slot} (he : (s.trigger src).enable = true)
    (hl : (s.trigger src).live ≠ (s.trigger src).limit.toNat) (hf : (s.run n).state = .free)
    (hm : ∀ m, m < n → (s.run m).state ≠ .free) : triggerEvent src s = startRun src n s := by
  obtain ⟨off, -⟩ | ⟨-, full, -⟩ | ⟨-, -, none, -⟩ | ⟨-, -, k, hk, lowest, h⟩ := triggerEvent_cases src s
  · rw [he] at off; cases off
  · exact absurd full hl
  · exact absurd hf (none n)
  · obtain hlt | rfl | hlt := lt_trichotomy n k
    · exact absurd hf (lowest n hlt)
    · exact h
    · exact absurd hk (hm k hlt)

/-- Settles O19, by the admission tests in order. -/
theorem eventsIgnoredMissedOrInvalid : Obligations.EventsIgnoredMissedOrInvalid := by
  intro c src b s h
  obtain ⟨hexec, hb⟩ := exec_of_event h
  rw [hexec]
  generalize b.lines = L at hb
  generalize b.timers = T at hb
  subst hb
  refine ⟨fun hoff => ?_, fun he hl => ?_, fun he hl hp => ?_, fun n he hl hf hm hv => ?_⟩
  · exact congrArg _ (triggerEvent_of_disabled hoff)
  · exact congrArg _ (triggerEvent_of_limit he hl)
  · exact congrArg _ (triggerEvent_of_pool he hl hp)
  · refine congrArg _ (Eq.trans (triggerEvent_of_free ?_ ?_ hf hm) (startRun_of_invalid n hv))
    · exact he
    · exact hl

/-- Settles O20. -/
theorem admittedRunTakesLowestSlotAndQueues : Obligations.AdmittedRunTakesLowestSlotAndQueues := by
  intro c src b s n h he hl hf hm hv
  obtain ⟨hexec, hb⟩ := exec_of_event h
  rw [hexec]
  generalize b.lines = L at hb
  generalize b.timers = T at hb
  subst hb
  refine ⟨_, congrArg _ (Eq.trans (triggerEvent_of_free ?_ ?_ hf hm) (startRun_of_valid n hv)), ?_⟩
  · exact he
  · exact hl
  · exact decideWhere_decided _ _

end Sys2Proof.Machine
end

section
/-! What the window reads (09 9.2, 10 10.5, 10.6): numbers as sums of fields, flags bit by bit. -/

namespace Sys2Proof.Machine

variable {s : State}

-- Bytes made of flags

/-- The number with bit `i` as `f` says, for the bits below `n`. -/
def flagSum (f : Nat → Bool) (n : Nat) : Nat := ((List.range n).map fun i => bitVal (f i) * 2 ^ i).sum

theorem flagSum_succ (f : Nat → Bool) (n : Nat) : flagSum f (n + 1) = 2 ^ n * bitVal (f n) + flagSum f n := by
  rw [flagSum, List.range_succ, List.map_append, List.sum_append, Nat.add_comm, flagSum]
  simp [Nat.mul_comm]

theorem flagSum_lt (f : Nat → Bool) (n : Nat) : flagSum f n < 2 ^ n := by
  induction n with
  | zero => exact Nat.one_pos
  | succ n ih =>
    rw [flagSum_succ, Nat.pow_succ]
    cases f n <;> simp [bitVal] <;> omega

theorem testBit_flagSum (f : Nat → Bool) (n i : Nat) :
    (flagSum f n).testBit i = (decide (i < n) && f i) := by
  induction n with
  | zero => simp [flagSum]
  | succ n ih =>
    rw [flagSum_succ, Nat.testBit_two_pow_mul_add _ (flagSum_lt f n), ih]
    obtain h | rfl | h := lt_trichotomy i n
    · simp [h, Nat.lt_succ_of_lt h]
    · cases f i <;> simp [bitVal]
    · have hbit : (bitVal (f n)).testBit (i - n) = false := by
        refine Nat.testBit_lt_two_pow ?_
        have : 2 ^ 1 ≤ 2 ^ (i - n) := Nat.pow_le_pow_right (by decide) (by omega)
        have : bitVal (f n) < 2 := by cases f n <;> decide
        omega
      rw [if_neg (by omega), hbit]
      simp [Nat.not_lt.2 (Nat.succ_le_of_lt h)]

theorem getLsbD_byteOf_flagSum (f : Nat → Bool) {n i : Nat} (hi : i < 8) :
    (byteOf (flagSum f n)).getLsbD i = (decide (i < n) && f i) := by
  rw [byteOf, BitVec.getLsbD_ofNat, decide_eq_true hi, Bool.true_and, testBit_flagSum]

/-- A flag of each of `n` things at its own number. -/
def flagOf {n : Nat} (f : Fin n → Bool) (i : Nat) : Bool := if h : i < n then f ⟨i, h⟩ else false

theorem flagOf_val {n : Nat} (f : Fin n → Bool) (i : Fin n) : flagOf f i.val = f i := dif_pos i.isLt

theorem sum_finRange_flags {n : Nat} (f : Fin n → Bool) :
    ((List.finRange n).map fun i => bitVal (f i) * 2 ^ i.val).sum = flagSum (flagOf f) n := by
  rw [flagSum, ← List.map_coe_finRange_eq_range, List.map_map]
  congr 1
  refine List.map_congr_left fun i _ => ?_
  simp only [Function.comp, flagOf_val]

theorem getLsbD_pendByte (s : State) (g : GroupId) :
    (pendByte s).getLsbD g.val = pendingGroup s g := by
  have h : pendByte s = byteOf (flagSum (flagOf (pendingGroup s)) 8) :=
    congrArg byteOf (sum_finRange_flags (pendingGroup s))
  rw [h, getLsbD_byteOf_flagSum _ g.isLt, flagOf_val]
  simp

theorem getLsbD_timerStateByte (s : State) (i : Fin 8) :
    (timerStateByte s).getLsbD i.val = if h : i.val < 4 then (s.timer ⟨i.val, h⟩).running else false := by
  have h : timerStateByte s = byteOf (flagSum (flagOf fun k : TimerId => (s.timer k).running) 4) :=
    congrArg byteOf (sum_finRange_flags fun k : TimerId => (s.timer k).running)
  rw [h, getLsbD_byteOf_flagSum _ i.isLt, flagOf]
  by_cases hi : i.val < 4 <;> simp [hi]

/-- The MISS latches of the sources from `base` on. -/
def missFlag (s : State) (base i : Nat) : Bool := flagOf (fun n : Source => (s.trigger n).missLatch) (base + i)

theorem missByte_eq (s : State) {base : Nat} (h : base = 0 ∨ base = 8 ∨ base = 16) :
    missByte s base = byteOf (flagSum (missFlag s base) 8) := by
  refine congrArg byteOf ?_
  obtain rfl | rfl | rfl := h
  · simp [allSources, List.finRange_succ, flagSum, List.range_succ, missFlag, flagOf]
  · simp [allSources, List.finRange_succ, flagSum, List.range_succ, missFlag, flagOf]
  · simp [allSources, List.finRange_succ, flagSum, List.range_succ, missFlag, flagOf, show bitVal false = 0 from rfl]

-- The registers

theorem readRegister_running (a : Fin 32) (h : s.mode = .running) {b : Byte}
    (hb : readRegister a { s with mode := .running } = b) : readRegister a s = b := by
  rw [← hb, ← h]

theorem anyHalted_iff (s : State) : anyHalted s = true ↔ ∃ p, (s.port p).state = .halted := by
  simp [anyHalted, allPorts]

theorem bitVal_of_iff {b : Bool} {P : Prop} [Decidable P] (h : b = true ↔ P) :
    bitVal b = if P then 1 else 0 := by
  by_cases hp : P
  · rw [if_pos hp, h.2 hp]; rfl
  · rw [if_neg hp, Bool.eq_false_iff.2 (hp ∘ h.1)]; rfl

theorem mul_ite_one (m : Nat) (P : Prop) [Decidable P] :
    m * (if P then 1 else 0) = if P then m else 0 := by
  split <;> simp

theorem bitVal_le (b : Bool) : bitVal b ≤ 1 := by cases b <;> decide

theorem toNat_statusByte (s : State) [Decidable (∃ g, claimable s g = true)]
    [Decidable (∃ p, (s.port p).state = .halted)] : (statusByte s).toNat =
      (if ∃ g, claimable s g = true then 2 else 0)
        + (if ∃ p, (s.port p).state = .halted then 4 else 0) + (if s.fault ≠ .none then 8 else 0) := by
  have h1 := bitVal_le (irqState s)
  have h2 := bitVal_le (anyHalted s)
  have h3 := bitVal_le (s.fault != .none)
  rw [statusByte, toNat_byteOf (by omega), bitVal_of_iff (irqState_iff s),
    bitVal_of_iff (anyHalted_iff s), bitVal_of_iff bne_iff_ne, mul_ite_one, mul_ite_one, mul_ite_one]

theorem faultCodeVal_eq (c : FaultCode) : faultCodeVal c =
    [FaultCode.none, .badCommand, .badArgument, .badValue, .entryBusy, .quotaBusy, .quotaSum,
      .readOnly, .endEmpty, .endMismatch, .staleRelease, .emptyRelease].idxOf c := by
  cases c <;> rfl

theorem faultCodeVal_le (c : FaultCode) : faultCodeVal c ≤ 11 := by cases c <;> decide

theorem portStateCode_eq (st : PortState) : portStateCode st =
    [PortState.off, .idle, .shifting, .await, .gap, .halted].idxOf st := by
  cases st <;> rfl

theorem portStateCode_le (st : PortState) : portStateCode st ≤ 5 := by cases st <;> decide

theorem Queue.level_iff (Q : Queue) :
    Q.level = true ↔ Q.threshold ≠ 0 ∧ Q.threshold.toNat ≤ Q.records.length := by
  rw [Queue.level, Queue.occupancy, Bool.and_eq_true, decide_eq_true_eq, bne_iff_ne]

theorem toNat_flagsByte (s : State) : (flagsByte s).toNat =
    (if (s.queue s.rqsel).lost then 1 else 0) + (if (s.queue s.rqsel).err then 2 else 0)
      + (if (s.queue s.rqsel).threshold ≠ 0
            ∧ (s.queue s.rqsel).threshold.toNat ≤ (s.queue s.rqsel).records.length then 4 else 0) := by
  have h1 := bitVal_le (s.queue s.rqsel).lost
  have h2 := bitVal_le (s.queue s.rqsel).err
  have h3 := bitVal_le (s.queue s.rqsel).level
  rw [flagsByte, toNat_byteOf (by omega), bitVal_of_iff (Queue.level_iff _), mul_ite_one, bitVal_eq,
    bitVal_eq, mul_ite_one]

theorem readRegister_nstack (h : s.mode = .running) :
    readRegister 0x15 s = byteOf (stackPart s .low + 16 * stackPart s .high) := by
  rw [readRegister, if_neg (not_not.2 h)]
  rfl

theorem freeCount_le (s : State) : freeCount s ≤ 32 :=
  (List.countP_le_length).trans (by simp [allSlots])

theorem readRegister_miss (h : s.mode = .running) (r : Fin 3) :
    readRegister (Fin.ofNat 32 (0x1D + r.val)) s = byteOf (flagSum (missFlag s (8 * r.val)) 8) := by
  rw [readRegister, if_neg (not_not.2 h)]
  obtain rfl | rfl | rfl : r = 0 ∨ r = 1 ∨ r = 2 := by omega
  · exact missByte_eq s (.inl rfl)
  · exact missByte_eq s (.inr (.inl rfl))
  · exact missByte_eq s (.inr (.inr rfl))

theorem getLsbD_readRegister_miss (h : s.mode = .running) (i : Fin 24) :
    (readRegister (Fin.ofNat 32 (0x1D + i.val / 8)) s).getLsbD (i.val % 8) =
      if hi : i.val < 20 then (s.trigger ⟨i.val, hi⟩).missLatch else false := by
  have he := readRegister_miss h ⟨i.val / 8, by omega⟩
  rw [he, getLsbD_byteOf_flagSum _ (by omega), missFlag]
  have hi : 8 * (i.val / 8) + i.val % 8 = i.val := by omega
  have hlt : i.val % 8 < 8 := by omega
  simp only [hi, hlt, decide_true, Bool.true_and, flagOf]

theorem readRegister_free (h : s.mode = .running) :
    (readRegister 0x1C s).toNat = allSlots.countP fun n => (s.run n).state == .free := by
  rw [readRegister, if_neg (not_not.2 h)]
  exact toNat_byteOf (lt_of_le_of_lt (freeCount_le s) (by decide))

theorem toNat_portPairByte (s : State) (x y : Port) : (portPairByte s x y).toNat =
    [PortState.off, .idle, .shifting, .await, .gap, .halted].idxOf (s.port x).state
      + 16 * [PortState.off, .idle, .shifting, .await, .gap, .halted].idxOf (s.port y).state := by
  have hx := portStateCode_le (s.port x).state
  have hy := portStateCode_le (s.port y).state
  rw [portPairByte, toNat_byteOf (by omega), portStateCode_eq, portStateCode_eq]

/-- Settles O28, register by register. -/
theorem windowShowsTheState : Obligations.WindowShowsTheState := by
  intro s running
  have read {a : Fin 32} {b : Byte} (hb : readRegister a { s with mode := .running } = b) :
      readRegister a s = b := readRegister_running a running hb
  have hfault := faultCodeVal_le s.fault
  have hlater : s.laterFaults.toNat < 16 := s.laterFaults.isLt
  refine ⟨?_, ?_, read rfl, read rfl, ?_, ?_, fun h => ?_, fun g h => ?_, fun g h => ?_, fun g h hs => ?_,
    fun g => ?_, read rfl, fun a x y hmem => ?_, fun i => ?_, ?_⟩
  · rw [readRegister_status running]
    exact toNat_statusByte s
  · rw [read (a := 0x05) (b := byteOf (faultCodeVal s.fault + 16 * s.laterFaults.toNat)) rfl,
      toNat_byteOf (by omega), faultCodeVal_eq]
  · rw [read (a := 0x0E) (b := flagsByte s) rfl]
    exact toNat_flagsByte s
  · rw [read (a := 0x12) (b := byteOf (bitVal s.nen + 2 * bitVal s.nlow)) rfl,
      toNat_byteOf (by have := bitVal_le s.nen; have := bitVal_le s.nlow; omega), bitVal_eq, bitVal_eq,
      mul_ite_one]
  · rw [readRegister_nstack running]
    simp [stackPart, h, byteOf]
  · rw [readRegister_nstack running]
    simp only [stackPart, h, List.find?]
    exact toNat_byteOf (by change 8 + g.val + 16 * 0 < 256; omega)
  · rw [readRegister_nstack running]
    simp only [stackPart, h, List.find?]
    exact (toNat_byteOf (by change 0 + 16 * (8 + g.val) < 256; omega)).trans (Nat.zero_add _)
  · rw [readRegister_nstack running]
    simp only [stackPart, hs, List.find?]
    refine (toNat_byteOf (by change 8 + g.val + 16 * (8 + h.val) < 256; omega)).trans ?_
    change 8 + g.val + 16 * (8 + h.val) = _
    omega
  · rw [read (a := 0x16) (b := pendByte s) rfl]
    exact getLsbD_pendByte s g
  · simp only [List.mem_cons, Prod.mk.injEq, List.not_mem_nil, or_false] at hmem
    obtain ⟨rfl, rfl, rfl⟩ | ⟨rfl, rfl, rfl⟩ := hmem
    · rw [read (a := 0x19) (b := portPairByte s 0 1) rfl, toNat_portPairByte]
    · rw [read (a := 0x1A) (b := portPairByte s 2 3) rfl, toNat_portPairByte]
  · rw [read (a := 0x1B) (b := timerStateByte s) rfl]
    exact getLsbD_timerStateByte s i
  · rw [readRegister_free running]
    refine List.countP_congr fun n _ => ?_
    rw [decide_eq_true_eq]
    exact ⟨fun h => ⟨h, getLsbD_readRegister_miss running⟩, fun h => h.1⟩

end Sys2Proof.Machine
end

section
/-! Frame bytes and the output pins (02 2.5, 05 5.1, 5.3, 5.5, 5.11). -/

namespace Sys2Proof.Machine

variable {s : State}

-- Frame bytes

/-- Bit `i` of the byte that comes `i`-th on the wire, in the target's bit order (05 R89). -/
def wireIndex (lsbFirst : Bool) (i : Nat) : Nat := if lsbFirst then i else 7 - i

theorem reverseBits_eq (b : Byte) : reverseBits b = byteOf (flagSum (fun i => bitOf b (7 - i)) 8) := by
  refine congrArg byteOf ?_
  simp only [flagSum, List.range_succ, List.range_zero, List.nil_append, List.cons_append, List.map_cons,
    List.map_nil, List.sum_cons, List.sum_nil]
  norm_num
  omega

theorem getLsbD_assembleBits (lsbFirst : Bool) (bits : Byte) (i : Fin 8) :
    (assembleBits lsbFirst bits).getLsbD i.val = bits.getLsbD (wireIndex lsbFirst i.val) := by
  cases lsbFirst with
  | true => rfl
  | false =>
    change (reverseBits bits).getLsbD i.val = bits.getLsbD (7 - i.val)
    rw [reverseBits_eq, getLsbD_byteOf_flagSum _ i.isLt, decide_eq_true i.isLt, Bool.true_and]
    rfl

/-- Settles O30. -/
theorem frameBytesSentAndCaptured : Obligations.FrameBytesSentAndCaptured := by
  intro p n f bits s running shifting att frame
  refine ⟨fun more => ?_, fun all more => ?_⟩
  · change Host.Outcome.next (whenRunning (transmitBegins p) s) = _
    rw [whenRunning_of_running _ running]
    simp only [transmitBegins, att, frame, if_pos (And.intro shifting more), Frame.reached, clocksTo_eq,
      launchPoint_eq]
  · have hexec : exec (.receiveByteSampled p bits) s = .next
        ((s.setRun n { s.run n with
            capture := (s.run n).capture ++ [assembleBits f.lsbFirst bits] }).setPort p
          { s.port p with
            frame := some { f with
              clocks := max f.clocks (clocksAt f (sampleHalf f.mode f.delayed
                (8 * (f.txLen + (s.run n).capture.length) + 7))) } }) := by
      change Host.Outcome.next (whenRunning (receiveSampled p bits) s) = _
      rw [whenRunning_of_running _ running]
      simp only [receiveSampled, att, frame, if_pos (And.intro shifting (And.intro all.ge more)),
        Frame.reached, clocksTo_eq, samplePoint_eq]
    refine ⟨_, hexec, ?_⟩
    simp only [State.setPort_run, State.setRun_run_self]
    refine ⟨trivial, ?_, ?_, fun i => ?_⟩
    · simp
    · simp
    · simp only [List.getLastD_concat]
      exact getLsbD_assembleBits f.lsbFirst bits i

-- Pins

theorem halvesOf_eq {f : Frame} {h : Nat} (hle : clocksAt f h ≤ f.clocks)
    (hlt : f.clocks < clocksAt f (h + 1)) : halvesOf f = h := by
  unfold clocksAt at hle hlt
  unfold halvesOf
  generalize (if f.leadIn then 1 else 0) = lead at hle hlt ⊢
  rw [Nat.div_eq_of_lt_le hle (by rwa [Nat.add_assoc])]
  exact Nat.add_sub_cancel_left lead h

theorem clocksAt_zero_le (f : Frame) (h : Nat) : clocksAt f 0 ≤ clocksAt f h :=
  Nat.mul_le_mul_right _ (by omega)

section
variable {p : Port} {f : Frame} {h : Nat}

theorem onWire_of_off (hm : s.mode ≠ .running ∨ (s.port p).state ≠ .shifting) : onWire s p = none :=
  if_neg fun hc => hm.elim (absurd hc.1) (absurd hc.2)

theorem onWire_of_before (frame : (s.port p).frame = some f) (hb : f.clocks < clocksAt f 0) :
    onWire s p = none := by
  rw [onWire, frame, Option.bind_some, point_eq, if_neg (Nat.not_le.2 hb)]
  exact ite_self none

theorem onWire_of_at (running : s.mode = .running) (shifting : (s.port p).state = .shifting)
    (frame : (s.port p).frame = some f) (hle : clocksAt f h ≤ f.clocks)
    (hlt : f.clocks < clocksAt f (h + 1)) : onWire s p = some (f, h) := by
  rw [onWire, if_pos ⟨running, shifting⟩, frame, Option.bind_some, point_eq,
    if_pos ((clocksAt_zero_le f h).trans hle), halvesOf_eq hle hlt]
  rfl

end

/-- No frame on the wire: selects high, data low, the clock at rest. -/
theorem pins_of_none {p : Port} (line : Bool) (h : onWire s p = none) :
    selectPin s p line = true ∧ dataPin s p = false
      ∧ clockPin s p = (if s.mode = .running then (s.port p).clkIdle else false) := by
  simp only [selectPin, dataPin, clockPin, h, clockPinRest]
  refine ⟨trivial, trivial, ?_⟩
  by_cases hm : s.mode = .running <;> simp [hm]

theorem wireBits_getD (lsbFirst : Bool) (b : Byte) (i : Fin 8) :
    (wireBits lsbFirst b).getD i.val false = b.getLsbD (wireIndex lsbFirst i.val) := by
  cases lsbFirst with
  | true => simp [wireBits, wireIndex, bitOf]
  | false => simp [wireBits, wireIndex, bitOf]

/-- Pn_DO from the launch of bit `i` of byte `k` to the next launch (05 R87, R89). -/
theorem frameData_of_launched {f : Frame} {h k : Nat} (i : Fin 8) (hin : h < 16 * f.bytes)
    (hle : launchHalf f.mode (8 * k + i.val) ≤ h) (hlt : h < launchHalf f.mode (8 * k + i.val + 1)) :
    frameData f h = (frameByteOut f k).getLsbD (wireIndex f.lsbFirst i.val) := by
  have first : launchHalf f.mode 0 ≤ h ∧ (h - launchHalf f.mode 0) / 2 = 8 * k + i.val := by
    unfold launchHalf at hle hlt ⊢
    cases hm : f.mode with
    | a | b | c | d =>
      simp only [hm] at hle hlt ⊢
      omega
  have hk : (8 * k + i.val) / 8 = k := by omega
  have hi : (8 * k + i.val) % 8 = i.val := by omega
  rw [frameData, launchPoint_eq, if_pos ⟨first.1, hin⟩]
  simp only [first.2, hk, hi, wireBits_getD]

/-- Settles O31. -/
theorem pinsFollowTheFrame : Obligations.PinsFollowTheFrame := by
  intro p line f h s
  refine ⟨fun hoff => pins_of_none line (onWire_of_off hoff), fun running _ frame hb => ?_,
    fun running shifting frame hle hlt => ?_⟩
  · have pins := pins_of_none line (onWire_of_before frame hb)
    rwa [if_pos running] at pins
  · have wire := onWire_of_at running shifting frame hle hlt
    have rest : clockPinRest s p = (s.port p).clkIdle := by simp [clockPinRest, running]
    have data : dataPin s p = frameData f h := by simp only [dataPin, wire]
    have clock : clockPin s p =
        ((s.port p).clkIdle != (h % 2 == 1 && decide (h < 16 * f.bytes))) := by
      simp only [clockPin, wire, rest]
    refine ⟨by simp only [selectPin, wire], fun hout => ?_, fun hin => ⟨?_, fun hearly => ?_,
      fun k i hle hlt => ?_⟩⟩
    · have hend : ¬h < 16 * f.bytes := Nat.not_lt.2 hout
      refine ⟨by simp [clock, hend], ?_⟩
      rw [data, frameData, if_neg fun hc => hend hc.2]
    · have hbytes : h < 16 * f.bytes := hin
      rw [clock, decide_eq_true hbytes, Bool.and_true]
      obtain heven | hodd : h % 2 = 0 ∨ h % 2 = 1 := by omega
      · simp [heven]
      · simp [hodd]
    · rw [data, frameData, launchPoint_eq, if_neg fun hc => absurd hc.1 (Nat.not_le.2 hearly)]
    · rw [data, frameData_of_launched i hin hle hlt]
      rfl

end Sys2Proof.Machine
end

section
/-! The ends of waits, gaps and cut bytes, and PORT_ABORT, for runs that hold their reservations properly (03 3.5,
3.7, 3.8, 3.10; 05 5.6, 5.7, 5.9). -/

namespace Sys2Proof.Machine

variable {s : State} {p : Port} {n : Slot}

-- A run whose reservation stands in its copy's queue

section
variable (h : HoldsProperly s n)
include h

theorem HoldsProperly.postQueue : postQueue s n = copyQueue (s.run n).copy := by
  unfold Machine.postQueue
  cases hr : (s.run n).resv with
  | none => rfl
  | some q => exact (h q hr).1

theorem HoldsProperly.converts : converts s n = (s.run n).resv.isSome := by
  unfold Machine.converts
  cases hr : (s.run n).resv with
  | none => rfl
  | some q => exact decide_eq_true (h q hr).2

/-- The record of a run's end posted and the run gone (03 R59). -/
theorem HoldsProperly.endedRun (st : Status) (data : List Byte) :
    posted (runGone s n) (Machine.postQueue s n) (formRecord s n st data) (Machine.converts s n) =
      endedRun s n st data := by
  rw [h.postQueue, h.converts]
  rfl

theorem HoldsProperly.abortedRun (data : List Byte) :
    abortedRun s n data = Machine.endedRun s n .aborted data := h.endedRun .aborted data

end

theorem gapTicks_of_clockTarget {tg : TargetId} (h : (s.port p).clockTarget = some tg) :
    gapTicks s p = targetGap s.targets tg := by
  simp only [gapTicks, h]

/-- The gap of the target that the port's run has just served. -/
theorem gapTicks_eq_gapOf (h : (s.port p).clockTarget = some (copyTarget (s.run n).copy)) :
    gapTicks s p = gapOf s n :=
  gapTicks_of_clockTarget h

/-- The end at a step's end (03 R51, R57, R59), whatever steps the record counts by then. -/
theorem endAtStep_withSteps_decided (st : Status) (k : Byte) (hold : HoldsProperly s n)
    (clock : (s.port p).clockTarget = some (copyTarget (s.run n).copy)) :
    Decided (fun x => x == p)
      ((endedRun s n st (s.run n).capture).setPort p ((s.port p).gapAfter (gapOf s n)))
      (endAtStep p n st (s.withSteps n k)) := by
  rw [endAtStep_eq]
  simp only [runGone_withSteps, postQueue_withSteps, converts_withSteps, formRecord_withSteps,
    State.withSteps_port, gapTicks_withSteps, State.withSteps_run]
  rw [hold.endedRun, gapTicks_eq_gapOf clock]
  exact decideWhere_decided _ _

-- Ready waits

theorem exec_readyTimeout_of_running (p : Port) (running : s.mode = .running) :
    exec (.readyTimeoutExpiry p) s = .next (readyTimesOut p s) :=
  congrArg _ (whenRunning_of_running _ running)

theorem timesOut_iff : timesOut p n s = true ↔ s.mode = .running ∧ (s.port p).attached = some n
    ∧ (s.port p).state = .await ∧ (s.port p).interval = some 0
    ∧ (s.port p).clockTarget = some (copyTarget (s.run n).copy) := by
  simp [timesOut, and_assoc]

/-- A due ready timeout is what the run pool decides (05 R95). -/
theorem exec_of_timesOut (h : timesOut p n s = true) :
    exec (.readyTimeoutExpiry p) s = .next (timeoutOutcome p n s) := by
  obtain ⟨running, att, await, due, -⟩ := timesOut_iff.1 h
  rw [exec_readyTimeout_of_running p running]
  simp only [readyTimesOut, att, if_pos (And.intro await due)]

/-- Settles O38. -/
theorem timeoutEndsMarkedOrSpentRun : Obligations.TimeoutEndsMarkedOrSpentRun := by
  intro p n s h hold
  obtain ⟨-, -, -, -, clock⟩ := timesOut_iff.1 h
  have ended (st : Status) := endAtStep_withSteps_decided st (s.run n).steps hold clock
  simp only [State.withSteps_self] at ended
  rw [exec_of_timesOut h]
  refine ⟨fun mark => ?_, fun mark spent noHalt => ?_, fun mark spent halt => ?_⟩
  · simp only [timeoutOutcome, mark, if_true]
    exact ⟨_, rfl, ended .aborted⟩
  · simp only [timeoutOutcome, mark, spent, failStep, noHalt]
    exact ⟨_, rfl, ended .timeout⟩
  · have outcome : timeoutOutcome p n s = failStep p n s := by simp [timeoutOutcome, mark, spent]
    rw [outcome, failStep_of_halt n halt, hold.endedRun]

/-- The state in which the run of slot `n` has returned its reservation (06 R109), but for the run's own
record. -/
def withReturn (s : State) (n : Slot) : State :=
  s.setQueue (copyQueue (s.run n).copy)
    { s.queue (copyQueue (s.run n).copy) with
      resv := (s.queue (copyQueue (s.run n).copy)).resv - (if (s.run n).resv.isSome then 1 else 0) }

theorem HoldsProperly.returnResv (h : HoldsProperly s n) :
    returnResv n s = (withReturn s n).setRun n { s.run n with resv := none } :=
  returnResv_eq h

/-- The closed form of a retry is the rule's (03 R46). -/
theorem setPort_retried (clock : (s.port p).clockTarget = some (copyTarget (s.run n).copy)) :
    (queuedRun (withReturn s n) p n (({ s.run n with resv := none } : Run).retried p)).setPort p
      (((queuedRun (withReturn s n) p n (({ s.run n with resv := none } : Run).retried p)).port p).gapAfter
        (gapTicks (withReturn s n) p)) = retried s p n := by
  have hg : gapTicks (withReturn s n) p = gapOf s n := gapTicks_eq_gapOf clock
  rw [hg, queuedRun, State.setPort_port_self, State.setPort_setPort]
  rfl

/-- Settles O37. -/
theorem timeoutWithRetriesLeftRetries : Obligations.TimeoutWithRetriesLeftRetries := by
  intro p n s h hold mark left
  obtain ⟨-, -, -, -, clock⟩ := timesOut_iff.1 h
  have outcome : timeoutOutcome p n s = retryStep p n s := by
    rw [timeoutOutcome, if_neg (by simp [mark]), if_pos left]
  rw [exec_of_timesOut h, outcome, retryStep_eq hold.returnResv]
  refine ⟨_, rfl, ?_⟩
  have same := setPort_retried (s := s) (n := n) clock
  dsimp only
  rw [same]
  exact decideWhere_decided _ _

/-- Settles O32: the wait is entered, and a line that is ready ends it as its arrival would. -/
theorem frameEndWithAwaitWaitsForReady : Obligations.FrameEndWithAwaitWaitsForReady := by
  intro p n f s running shifting att frame sent got await
  have complete : frameComplete s n f = true := by simp [frameComplete, sent, got]
  have ends (ready : Bool) : exec (.frameEnd p ready) s = .next
      (if readyAt (awaiting s p n) p ready then stepSuccess p n (awaiting s p n) else awaiting s p n) := by
    refine (congrArg Host.Outcome.next (whenRunning_of_running (frameEnds p ready) running)).trans ?_
    simp only [frameEnds, att, frame, if_pos (And.intro shifting complete), await, if_true, enterAwait_eq] <;>
      rfl
  have low : ((awaiting s p n).port p).awaitLow = targetReadyLow s.targets (copyTarget (s.run n).copy) := by
    simp [awaiting]
  obtain ⟨same, state⟩ := awaiting_port s p n
  constructor
  · rw [ends, if_neg]
    simp [readyAt, low]
  · have ready : readyAt (awaiting s p n) p
        (!targetReadyLow s.targets (copyTarget (s.run n).copy)) = true := by simp [readyAt, low]
    have arrives : exec (.readyArrival p (!targetReadyLow s.targets (copyTarget (s.run n).copy)))
        (awaiting s p n) = .next (stepSuccess p n (awaiting s p n)) := by
      refine (congrArg Host.Outcome.next (whenRunning_of_running (s := awaiting s p n) _ running)).trans ?_
      simp only [readyArrives, same.trans att, if_pos (And.intro state ready)]
    rw [ends, if_pos ready, arrives]

-- Gaps and cut bytes

theorem exec_gapExpiry_of_due (running : s.mode = .running) (gap : (s.port p).state = .gap)
    (due : (s.port p).interval = some 0) :
    exec (.gapExpiry p) s = .next (decideWhere (fun x => x == p) (gapOver p s)) := by
  refine (congrArg Host.Outcome.next (whenRunning_of_running (gapExpires p) running)).trans ?_
  rw [gapExpires, if_pos ⟨gap, due⟩]

/-- Settles O39. -/
theorem gapExpiryStartsOrLeaves : Obligations.GapExpiryStartsOrLeaves := by
  intro p n s running gap due
  rw [exec_gapExpiry_of_due running gap due]
  refine ⟨fun att => ?_, fun att mark => ?_, fun att mark hold => ?_⟩
  · rw [gapOver_of_none att, leaveGap_eq]
    exact ⟨_, rfl, decideWhere_decided _ _⟩
  · rw [gapOver_of_unmarked att mark, startFrame_eq, decideWhere_port, decision, if_neg]
    rw [State.setPort_port_self]
    simp [PortRec.frameStarted]
  · rw [gapOver_of_marked att mark, hold.endedRun]
    exact ⟨_, rfl, decideWhere_decided _ _⟩

theorem exec_cutByteEnd_of_cut (running : s.mode = .running) (shifting : (s.port p).state = .shifting)
    (att : (s.port p).attached = none) : exec (.cutByteEnd p) s = .next (cutFinished p s) := by
  refine (congrArg Host.Outcome.next (whenRunning_of_running (cutByteEnds p) running)).trans ?_
  rw [cutByteEnds, if_pos ⟨shifting, att⟩]

/-- Settles O40. -/
theorem cutByteEndFollowsIndicator : Obligations.CutByteEndFollowsIndicator := by
  intro p tg s running shifting att
  rw [exec_cutByteEnd_of_cut running shifting att]
  refine ⟨fun cut clock => ?_, fun cut => ?_⟩
  · simp only [cutFinished, cut]
    rw [enterGap_of_detached att, gapTicks_of_clockTarget clock]
    exact ⟨_, rfl, decideWhere_decided _ _⟩
  · simp only [cutFinished, cut]
    exact ⟨_, rfl, decideWhere_decided _ _⟩

-- PORT_ABORT

theorem exec_portAbort_of_val (free : BusFree s) (harg : s.commandArg.toNat = p.val) :
    exec (.portAbort 0) s = .next (abortPort p s) := by
  change Host.Outcome.next (hostWrite (withArg 4 abortPort) (whenRunning (afterClocks 0) s)) = _
  rw [whenRunning_afterClocks_zero, hostWrite_of_busFree _ free, withArg_of_val _ p harg]

/-- Part clocks before a command, one by one (log 4). -/
theorem exec_portAbort_succ (k : Nat) (running : s.mode = .running) :
    ∃ t, PartClock s t ∧ exec (.portAbort (k + 1)) s = exec (.portAbort k) t :=
  ⟨partClock s, (partClock_spec running).1,
    congrArg (fun u => Host.Outcome.next (hostWrite (withArg 4 abortPort) u))
      (whenRunning_afterClocks_succ k running)⟩

theorem exec_portReset_succ (k : Nat) (running : s.mode = .running) :
    ∃ t, PartClock s t ∧ exec (.portReset (k + 1)) s = exec (.portReset k) t :=
  ⟨partClock s, (partClock_spec running).1,
    congrArg (fun u => Host.Outcome.next (hostWrite (withArg 4 resetPortCmd) u))
      (whenRunning_afterClocks_succ k running)⟩

/-- Settles O41, by the port's state. -/
theorem portAbortEndsTheAttachedRun : Obligations.PortAbortEndsTheAttachedRun := by
  refine ⟨fun k s running => exec_portAbort_succ k running, fun p n tg s free harg => ?_⟩
  rw [exec_portAbort_of_val free harg]
  refine ⟨fun att => ?_, fun att hold shifting inside => ?_, fun att hold clock state => ?_,
    fun att hold gap => ?_⟩
  · simp only [abortPort, att]
  · rw [abortPort_of_shifting att shifting, if_pos inside, hold.abortedRun]
  · have closed : abortPort p s = decideWhere (fun x => x == p)
        ((abortedRun s n (s.run n).capture).setPort p ((s.port p).gapAfter (gapTicks s p))) := by
      obtain await | ⟨shifting, outside⟩ := state
      · exact abortPort_of_await att await
      · rw [abortPort_of_shifting att shifting, if_neg (by simp [outside])]
    rw [closed, hold.abortedRun, gapTicks_of_clockTarget clock]
    exact ⟨_, rfl, decideWhere_decided _ _⟩
  · rw [abortPort_of_gap att gap, hold.abortedRun]

end Sys2Proof.Machine
end

section
/-! The end of a step (03 3.6): its settling for a run that holds its reservation properly, and the four outcomes of
step success. -/

namespace Sys2Proof.Machine

variable {c : Instr} {s : State} {p : Port} {n : Slot}

-- Step success

/-- The two commands that end a step with success (03 R49). -/
theorem endsStep_cases (h : endsStep c p n s = true) :
    s.mode = .running ∧ (s.port p).attached = some n
      ∧ (s.port p).clockTarget = some (copyTarget (s.run n).copy)
      ∧ ((∃ ready f, c = .frameEnd p ready ∧ (s.port p).state = .shifting
            ∧ copyAwait (s.run n).copy = false ∧ (s.port p).frame = some f ∧ frameComplete s n f = true)
        ∨ ∃ level, c = .readyArrival p level ∧ (s.port p).state = .await
            ∧ level ≠ (s.port p).awaitLow) := by
  simp only [endsStep, Bool.and_eq_true, beq_iff_eq] at h
  obtain ⟨⟨⟨running, att⟩, clock⟩, hc⟩ := h
  refine ⟨running, att, clock, ?_⟩
  cases c with
  | frameEnd x ready =>
    cases frame : (s.port p).frame with
    | none => simp [frame] at hc
    | some f =>
      simp only [frame, Bool.and_eq_true, beq_iff_eq, Bool.not_eq_true'] at hc
      obtain ⟨⟨⟨rfl, shifting⟩, await⟩, sent, got⟩ := hc
      exact .inl ⟨ready, f, rfl, shifting, await, rfl, by simp [frameComplete, sent, got]⟩
  | readyArrival x level =>
    simp only [Bool.and_eq_true, beq_iff_eq, bne_iff_ne] at hc
    obtain ⟨⟨rfl, await⟩, active⟩ := hc
    exact .inr ⟨level, rfl, await, active⟩
  | _ => cases hc

/-- A command that ends the step of a run with success. -/
theorem exec_of_endsStep (h : endsStep c p n s = true) :
    exec c s = .next (stepSuccess p n s) ∧ s.mode = .running ∧ (s.port p).attached = some n
      ∧ (s.port p).clockTarget = some (copyTarget (s.run n).copy) := by
  obtain ⟨running, att, clock, hc⟩ := endsStep_cases h
  refine ⟨?_, running, att, clock⟩
  obtain ⟨ready, f, rfl, shifting, await, frame, complete⟩ | ⟨level, rfl, await, active⟩ := hc
  · refine (congrArg Host.Outcome.next (whenRunning_of_running (frameEnds p ready) running)).trans ?_
    simp only [frameEnds, att, frame, if_pos (And.intro shifting complete), await, Bool.false_eq_true,
      if_false]
  · have at_ : readyAt s p level = true := by simpa [readyAt] using active
    refine (congrArg Host.Outcome.next (whenRunning_of_running (readyArrives p level) running)).trans ?_
    simp only [readyArrives, att, if_pos (And.intro await at_)]

theorem satInc_steps (r : Run) : satInc r.steps = stepsAfter r := satInc_byte r.steps

/-- The four tests of step success (03 R49). -/
theorem stepSuccess_eq (p : Port) (n : Slot) (s : State) :
    stepSuccess p n s =
      if (s.run n).mark then endAtStep p n .aborted (s.withSteps n (stepsAfter (s.run n)))
      else if copyNext (s.run n).copy = endOfChain then
        endSuccessfully p n (s.withSteps n (stepsAfter (s.run n)))
      else if reachesLimit s n then endAtStep p n .stepLimit (s.withSteps n (stepsAfter (s.run n)))
      else advance p n (s.withSteps n (stepsAfter (s.run n))) := by
  have hs : s.setRun n { s.run n with steps := satInc (s.run n).steps } =
      s.withSteps n (stepsAfter (s.run n)) := by rw [satInc_steps]; rfl
  have limit : stepLimitReached (s.withSteps n (stepsAfter (s.run n))) n = reachesLimit s n :=
    stepLimitReached_withSteps s n _
  simp only [stepSuccess, hs, limit, State.withSteps_run]

/-- Settles O33. -/
theorem markedOrLimitedStepEndsRun : Obligations.MarkedOrLimitedStepEndsRun := by
  intro c p n s h hold
  obtain ⟨hexec, -, -, clock⟩ := exec_of_endsStep h
  have ended (st : Status) := endAtStep_withSteps_decided st (stepsAfter (s.run n)) hold clock
  rw [hexec, stepSuccess_eq]
  refine ⟨fun mark => ?_, fun mark next limit => ?_⟩
  · rw [if_pos mark]
    exact ⟨_, rfl, ended .aborted⟩
  · rw [if_neg (by simp [mark]), if_neg (show ¬copyNext (s.run n).copy = endOfChain from next), if_pos limit]
    exact ⟨_, rfl, ended .stepLimit⟩

-- The step settled

/-- The state in which the step of the run in slot `n` is settled (03 R50, R52 step 1), but for the run's own
record. -/
def settledBut (s : State) (n : Slot) : State :=
  if copyPost (s.run n).copy then
    posted s (copyQueue (s.run n).copy) (recordOf s n .ok (s.run n).capture) (s.run n).resv.isSome
  else withReturn s n

/-- The record of the run in slot `n` after its step is settled. -/
def Run.settled (r : Run) : Run := { r with steps := stepsAfter r, resv := none }

/-- All but the queues and the pointer stand when a step is settled. -/
theorem settledBut_eq (s : State) (n : Slot) : settledBut s n =
    s.results (settledBut s n).queues (settledBut s n).headPtr := by
  unfold settledBut
  split <;> rfl

theorem settled_eq (s : State) (n : Slot) :
    settled s n = (settledBut s n).setRun n (s.run n).settled := by
  unfold settled settledBut
  dsimp only
  split <;> rfl

/-- The settling is the rule's, for a run that holds its reservation properly. -/
theorem HoldsProperly.settleStep (h : HoldsProperly s n) :
    settleStep n (s.withSteps n (stepsAfter (s.run n))) =
      (settledBut s n).setRun n (s.run n).settled := by
  have hold : HoldsProperly (s.withSteps n (stepsAfter (s.run n))) n := by
    intro q hq
    rw [State.withSteps_run] at hq ⊢
    exact h q hq
  unfold Machine.settleStep settledBut
  simp only [State.withSteps_run]
  split
  · rw [postHeld_eq, postQueue_withSteps, converts_withSteps, formRecord_withSteps, h.postQueue,
      h.converts, State.withSteps_run, State.withSteps, posted_setRun, State.setRun_setRun]
    rfl
  · rw [returnResv_eq hold]
    simp only [State.withSteps_run]
    exact State.setRun_setRun (withReturn s n) n _ _

section
variable (s : State) (n : Slot)

@[simp] theorem settledBut_run (m : Slot) : (settledBut s n).run m = s.run m := by
  rw [settledBut_eq]; rfl
@[simp] theorem settledBut_port (x : Port) : (settledBut s n).port x = s.port x := by
  rw [settledBut_eq]; rfl
@[simp] theorem settledBut_trigger (m : Source) : (settledBut s n).trigger m = s.trigger m := by
  rw [settledBut_eq]; rfl
@[simp] theorem settledBut_targets : (settledBut s n).targets = s.targets := by rw [settledBut_eq]; rfl
@[simp] theorem settledBut_desc : (settledBut s n).desc = s.desc := by rw [settledBut_eq]; rfl

theorem settledBut_runGone : runGone (settledBut s n) n =
    ((settled s n).setRun n freeRun).setTrigger (s.run n).source
      { s.trigger (s.run n).source with live := (s.trigger (s.run n).source).live - 1 } := by
  rw [settled_eq, State.setRun_setRun, runGone, settledBut_run, settledBut_trigger]
  rfl

end

theorem gapTicks_settledBut (clock : (s.port p).clockTarget = some (copyTarget (s.run n).copy)) :
    gapTicks (settledBut s n) p = gapOf s n := by
  rw [gapTicks_eq_gapOf (n := n) (by rw [settledBut_port, settledBut_run]; exact clock)]
  simp only [gapOf, settledBut_targets, settledBut_run]

/-- The closed form of a successful end is the rule's (03 R50, R59). -/
theorem setPort_endedWell (clock : (s.port p).clockTarget = some (copyTarget (s.run n).copy)) :
    (runGone (settledBut s n) n).setPort p (((settledBut s n).port p).gapAfter
      (gapTicks (settledBut s n) p)) = endedWell s p n := by
  rw [gapTicks_settledBut clock, settledBut_runGone, settledBut_port]
  rfl

theorem returnedBy_eq_returnedIn (s : State) (n : Slot) : returnedBy (s.run n) = returnedIn s n := rfl

theorem nextDesc_withSteps (s : State) (n : Slot) (k : Byte) :
    nextDesc (s.withSteps n k) n = nextDesc s n := by
  simp only [nextDesc, State.withSteps_run]

/-- A step's success at next END (03 R50, R59, R60). -/
theorem stepSuccess_of_end (hold : HoldsProperly s n)
    (clock : (s.port p).clockTarget = some (copyTarget (s.run n).copy)) (mark : (s.run n).mark = false)
    (next : copyNext (s.run n).copy = 0xFF) :
    stepSuccess p n s = fireOnEnd (s.run n).source
      (decideWhere (fun x => x == p || returnLeads (endedWell s p n) (returnedIn s n) x)
        (endedWell s p n)) := by
  rw [stepSuccess_eq, if_neg (by simp [mark]),
    if_pos (show copyNext (s.run n).copy = endOfChain from next),
    endSuccessfully_eq hold.settleStep (by rw [settledBut_run]; rfl), setPort_endedWell clock,
    returnedBy_withSteps, State.withSteps_run]
  rfl

theorem endedWell_onEnd (s : State) (p : Port) (n : Slot) (src : Source) :
    ((endedWell s p n).trigger src).onEnd = (s.trigger src).onEnd := by
  have base : (settled s n).trigger src = s.trigger src := by
    rw [settled_eq, State.setRun_trigger, settledBut_trigger]
  by_cases h : src = (s.run n).source
  · subst h
    simp [endedWell]
  · simp [endedWell, State.setTrigger_trigger_of_ne _ h, base]

theorem endedWell_busFree (p : Port) (n : Slot) (free : BusFree s) : BusFree (endedWell s p n) := by
  unfold endedWell
  rw [settled_eq, settledBut_eq]
  exact free

/-- Settles O34: the on-end event is that of a SWTRIG write. -/
theorem stepAtEndOfChainEndsRun : Obligations.StepAtEndOfChainEndsRun := by
  intro c p n s h hold mark next
  obtain ⟨hexec, running, -, clock⟩ := exec_of_endsStep h
  rw [hexec, stepSuccess_of_end hold clock mark next]
  have decided := decideWhere_decided
    (fun x => x == p || returnLeads (endedWell s p n) (returnedIn s n) x) (endedWell s p n)
  generalize decideWhere (fun x => x == p || returnLeads (endedWell s p n) (returnedIn s n) x)
    (endedWell s p n) = t at decided ⊢
  have frame := decided.effects.1
  have onEnd : (t.trigger (s.run n).source).onEnd = (s.trigger (s.run n).source).onEnd := by
    rw [← endedWell_onEnd s p n, frame]
    rfl
  refine ⟨fun none => ⟨t, ?_, decided⟩, fun k some closed => ⟨t, decided, ?_⟩⟩
  · simp only [fireOnEnd, onEnd, none]
  · have free : BusFree t := by
      rw [BusFree, frame]
      exact endedWell_busFree p n ⟨running, closed⟩
    have arg : (BitVec.ofNat 8 k.val : Byte).toNat = k.val := by
      rw [BitVec.toNat_ofNat]
      exact Nat.mod_eq_of_lt (by omega)
    refine Eq.symm ((next_hostWrite_of_busFree (softwareTrigger _) free).trans ?_)
    simp only [softwareTrigger, argOf_of_val k arg, fireOnEnd, onEnd, some]

-- Advances

/-- A settled step leaves the queues' configuration (06 6.8). -/
theorem settledBut_sameConfig (s : State) (n : Slot) (q : QueueId) :
    (s.queue q).SameConfig ((settledBut s n).queue q) := by
  by_cases h : q = copyQueue (s.run n).copy
  · subst h
    unfold settledBut
    split
    · rw [posted_queue_self]
      exact Queue.afterPost_sameConfig _ _ _
    · rw [withReturn, State.setQueue_queue_self]
      exact .refl _
  · have same : (settledBut s n).queue q = s.queue q := by
      unfold settledBut
      split
      · exact posted_queue_of_ne _ _ h
      · exact State.setQueue_queue_of_ne s h _
    rw [same]
    exact .refl _

theorem copyValid_settledBut (s : State) (n : Slot) (d : DescCopy) :
    copyValid (settledBut s n) d = copyValid s d := by
  unfold copyValid
  rw [(settledBut_sameConfig s n _).1, settledBut_targets]

/-- The copy that an advance fetches, whatever steps the record counts by then. -/
theorem fetchCopy_settledBut (s : State) (n : Slot) (k : Byte) :
    fetchCopy (settledBut s n).desc (nextDesc (s.withSteps n k) n) = nextCopy s n := by
  rw [settledBut_desc, nextDesc_withSteps]
  rfl

/-- A step's success that leads to an advance (03 R49, test 4). -/
theorem stepSuccess_of_advances (p : Port) (h : advances s n = true) :
    stepSuccess p n s = advance p n (s.withSteps n (stepsAfter (s.run n)))
      ∧ (s.run n).mark = false := by
  simp only [advances, Bool.and_eq_true, Bool.not_eq_true', decide_eq_true_eq] at h
  obtain ⟨⟨mark, next⟩, limit⟩ := h
  have more : ¬copyNext (s.run n).copy = endOfChain := fun e => by
    rw [e] at next
    exact absurd next (by decide)
  refine ⟨?_, mark⟩
  rw [stepSuccess_eq, if_neg (by simp [mark]), if_neg more, if_neg (by simp [limit])]

/-- The first two tests of a KEEP continuation, and its room (03 R53), are the rule's. -/
theorem keptIn_eq_keeps (s : State) (p : Port) (n : Slot) (k : Byte) :
    keptIn (s.withSteps n k) (settledBut s n) p n = keeps s p n := by
  have queue (q : QueueId) : (settled s n).queue q = (settledBut s n).queue q := by
    rw [settled_eq, State.setRun_queue]
  simp only [keptIn, keepPossibleIn, keepPossible, keepHasRoom, keeps, fetchCopy_settledBut, queue,
    State.withSteps_run, settledBut_targets, settledBut_port]
  rfl

theorem keptQueues_eq (u : State) (d : DescCopy) : keptQueues u d =
    u.queues.set (copyQueue d) { u.queue (copyQueue d) with
      resv := (u.queue (copyQueue d)).resv
        + (if (u.queue (copyQueue d)).policy == .lossless then 1 else 0) } := by
  by_cases h : (u.queue (copyQueue d)).policy = .lossless
  · simp only [keptQueues, h, if_true, beq_self_eq_true]
  · simp only [keptQueues, if_neg h, beq_eq_false_iff_ne.2 h, Bool.false_eq_true, if_false, Nat.add_zero]
    exact (congrArg State.queues (State.setQueue_self u (copyQueue d))).symm

theorem keptReservation_eq (u : State) (d : DescCopy) : keptReservation u d =
    if (u.queue (copyQueue d)).policy == .lossless then some (copyQueue d) else none := by
  simp only [keptReservation, beq_iff_eq]

/-- The closed form of a KEEP continuation is the rule's (03 R53). -/
theorem continueKept_eq_continued (att : (s.port p).attached = some n)
    (clock : (s.port p).clockTarget = some (copyTarget (s.run n).copy)) (mark : (s.run n).mark = false) :
    continueKept p n ((settledBut s n).setRun n ((s.run n).settled.loaded s.desc (nextDesc s n))) =
      continued s p n := by
  have port := settledBut_port s n p
  rw [continueKept_eq (by exact mark) rfl (by rwa [port]), gapTicks_settledBut clock, port, settledBut_targets,
    keptQueues_eq, keptReservation_eq]
  unfold continued
  rw [settled_eq]
  obtain ⟨Qs, H, hu⟩ : ∃ Qs H, settledBut s n = s.results Qs H := ⟨_, _, settledBut_eq s n⟩
  rw [hu]
  rfl

/-- A run that meets all conditions of a KEEP continuation meets the first two. -/
theorem keepPossible_of_keeps (h : keeps s p n = true) :
    keepPossible p (copyKeep (s.run n).copy) (nextCopy s n) s = true := by
  unfold keeps at h
  exact (Bool.and_eq_true_iff.1 h).1

/-- The return that leads ports to decisions where a KEEP continuation is possible (03 R53). -/
theorem advanceReturn_eq (k : Byte)
    (possible : keepPossible p (copyKeep (s.run n).copy) (nextCopy s n) s = true) :
    advanceReturn (s.withSteps n k) (settledBut s n) p n =
      if returnedIn s n = some (copyQueue (nextCopy s n)) then none else returnedIn s n := by
  have hp : keepPossibleIn (s.withSteps n k) (settledBut s n) p n = true := by
    rw [keepPossibleIn, fetchCopy_settledBut, State.withSteps_run, ← possible]
    simp only [keepPossible, settledBut_targets, settledBut_port]
  simp only [advanceReturn, hp, Bool.true_and, returnedBy_withSteps, fetchCopy_settledBut, beq_iff_eq]
  rfl

/-- Settles O35. -/
theorem keepContinuationStaysOnPort : Obligations.KeepContinuationStaysOnPort := by
  intro c p n s h hold adv valid kept
  obtain ⟨hexec, running, att, clock⟩ := exec_of_endsStep h
  obtain ⟨hstep, mark⟩ := stepSuccess_of_advances p adv
  have hkept : keptIn (s.withSteps n (stepsAfter (s.run n))) (settledBut s n) p n = true := by
    rw [keptIn_eq_keeps, kept]
  have hadv : stepSuccess p n s = decideWhere
      (fun x => returnLeads (continued s p n)
        (advanceReturn (s.withSteps n (stepsAfter (s.run n))) (settledBut s n) p n) x)
      (continued s p n) := by
    rw [hstep, advance_of_valid hold.settleStep (by rw [copyValid_settledBut, fetchCopy_settledBut]; exact valid)]
    simp only [hkept, if_true]
    rw [settledBut_desc, nextDesc_withSteps, continueKept_eq_continued att clock mark]
  have hret := advanceReturn_eq (s := s) (p := p) (n := n) (stepsAfter (s.run n)) (keepPossible_of_keeps kept)
  rw [hexec, hadv]
  refine ⟨_, rfl, (decideWhere_decided _ _).congr fun x => ?_⟩
  rw [hret]
  by_cases same : returnedIn s n = some (copyQueue (nextCopy s n))
  · simp [same, returnLeads]
  · simp [same]

/-- A returned reservation leaves room in its queue (06 R105, R109). -/
theorem hasRoom_of_returned (hold : HoldsProperly s n) (acc : AccountingBounded s) {q : QueueId}
    (h : returnedIn s n = some q) : ((settled s n).queue q).hasRoom = true := by
  unfold returnedIn at h
  split at h
  · cases h
  · next post =>
    obtain ⟨rfl, counted⟩ := hold q h
    obtain ⟨bound, -⟩ := acc.1 (copyQueue (s.run n).copy)
    have queue : (settled s n).queue (copyQueue (s.run n).copy) =
        { s.queue (copyQueue (s.run n).copy) with
          resv := (s.queue (copyQueue (s.run n).copy)).resv - 1 } := by
      rw [settled_eq, State.setRun_queue, settledBut, if_neg post, withReturn,
        State.setQueue_queue_self, h]
      rfl
    rw [queue, Queue.hasRoom, decide_eq_true_eq]
    simp only [Queue.occupancy] at bound ⊢
    omega

/-- A run that is not kept returned no reservation in the queue that it would have needed: every return of an
advance that re-queues leads ports to decisions (03 R53, R54). -/
theorem advanceReturn_of_unkept (k : Byte) (hold : HoldsProperly s n) (acc : AccountingBounded s)
    (unkept : keeps s p n = false) :
    advanceReturn (s.withSteps n k) (settledBut s n) p n = returnedIn s n := by
  cases possible : keepPossible p (copyKeep (s.run n).copy) (nextCopy s n) s with
  | false =>
    have hp : keepPossibleIn (s.withSteps n k) (settledBut s n) p n = false := by
      rw [keepPossibleIn, fetchCopy_settledBut, State.withSteps_run, ← possible]
      simp only [keepPossible, settledBut_targets, settledBut_port]
    simp only [advanceReturn, hp, Bool.false_and, Bool.false_eq_true, if_false, returnedBy_withSteps]
    rfl
  | true =>
    rw [advanceReturn_eq k possible, if_neg]
    intro same
    have room := hasRoom_of_returned hold acc same
    have kept : keeps s p n = true := by
      unfold keeps
      dsimp only
      rw [Bool.and_eq_true]
      exact ⟨possible, by rw [Bool.or_eq_true]; exact .inr room⟩
    rw [unkept] at kept
    cases kept

/-- The closed form of a re-queue is the rule's (03 R54). -/
theorem setPort_requeued (clock : (s.port p).clockTarget = some (copyTarget (s.run n).copy)) :
    let p' := targetPort s.targets (copyTarget (nextCopy s n))
    let v := queuedRun (settledBut s n) p' n (((s.run n).settled.loaded s.desc (nextDesc s n)).requeued p')
    v.setPort p ((v.port p).gapAfter (gapTicks (settledBut s n) p)) = requeued s p n := by
  dsimp only
  rw [gapTicks_settledBut clock]
  unfold requeued
  rw [settled_eq]
  obtain ⟨Qs, H, hu⟩ : ∃ Qs H, settledBut s n = s.results Qs H := ⟨_, _, settledBut_eq s n⟩
  rw [hu]
  simp only [queuedRun, State.setPort_setRun, State.setRun_setRun]
  rfl

/-- The closed form of an end on an invalid copy is the rule's (02 R27). -/
theorem setPort_endedInvalid (clock : (s.port p).clockTarget = some (copyTarget (s.run n).copy)) :
    (posted (runGone (settledBut s n) n) (copyQueue (nextCopy s n))
      (formRecord ((settledBut s n).setRun n ((s.run n).settled.advanced s.desc (nextDesc s n))) n
        .badDescriptor []) false).setPort p
      (((settledBut s n).port p).gapAfter (gapTicks (settledBut s n) p)) = endedInvalid s p n := by
  have rec' : formRecord ((settledBut s n).setRun n ((s.run n).settled.advanced s.desc (nextDesc s n))) n
      .badDescriptor [] =
      { recordOf s n .badDescriptor [] with desc := nextDesc s n, tag := copyTag (nextCopy s n) } := by
    simp only [formRecord, State.setRun_run_self]
    rw [settledBut_eq]
    rfl
  rw [rec', gapTicks_settledBut clock, settledBut_runGone, settledBut_port]
  rfl

/-- Settles O36. -/
theorem advanceRequeuesOrEndsInvalid : Obligations.AdvanceRequeuesOrEndsInvalid := by
  intro c p n s h hold acc adv
  obtain ⟨hexec, -, -, clock⟩ := exec_of_endsStep h
  obtain ⟨hstep, -⟩ := stepSuccess_of_advances p adv
  rw [hexec, hstep]
  refine ⟨fun valid unkept => ?_, fun invalid => ?_⟩
  · have hkept : keptIn (s.withSteps n (stepsAfter (s.run n))) (settledBut s n) p n = false := by
      rw [keptIn_eq_keeps, unkept]
    rw [advance_of_requeued hold.settleStep
      (by rw [copyValid_settledBut, fetchCopy_settledBut]; exact valid) hkept,
      advanceReturn_of_unkept _ hold acc unkept, fetchCopy_settledBut, settledBut_targets,
      settledBut_desc, nextDesc_withSteps]
    have closed := setPort_requeued clock
    dsimp only at closed ⊢
    rw [closed]
    exact ⟨_, rfl, decideWhere_decided _ _⟩
  · rw [advance_of_invalid hold.settleStep (by rw [settledBut_run]; rfl)
      (by rw [copyValid_settledBut, fetchCopy_settledBut]; exact invalid), fetchCopy_settledBut,
      settledBut_desc, nextDesc_withSteps, returnedBy_withSteps]
    dsimp only
    rw [setPort_endedInvalid clock]
    exact ⟨_, rfl, decideWhere_decided _ _⟩

end Sys2Proof.Machine
end

section
/-! Runs that end ABORTED one after the other (01 R16, 03 R63): what their records leave of each queue, of the
live-run counts and of the head-stream pointer. -/

namespace Sys2Proof.Machine

-- The records

/-- Queue `Q` after the postings of `recs` in order, none of status OK (06 R111, R112, R116); `converted` says
that the first of them converts a reservation. -/
def Queue.aborted (Q : Queue) (recs : List Record) (converted : Bool) : Queue :=
  let room := Q.quota - (Q.records.length + Q.resv) + (if converted then 1 else 0)
  let kept := recs.take room
  { Q with
    records := Q.records ++ kept.zipIdx.map fun x =>
      { x.1 with seq := Q.nextSeq + BitVec.ofNat 8 x.2 }
    nextSeq := Q.nextSeq + BitVec.ofNat 8 kept.length
    lostCount := BitVec.ofNat 8 (min 255 (Q.lostCount.toNat + (recs.length - room)))
    lost := Q.lost || decide (room < recs.length)
    err := Q.err || !recs.isEmpty
    resv := Q.resv - (if converted then 1 else 0) }

theorem ofNat_min_toNat (b : Byte) : BitVec.ofNat 8 (min 255 b.toNat) = b := by
  have := b.isLt
  rw [Nat.min_eq_right (by omega), BitVec.ofNat_toNat, BitVec.setWidth_eq]

/-- One lost record more, up to 255. -/
theorem ofNat_min_succ (k : Nat) :
    BitVec.ofNat 8 (min 255 (k + 1)) =
      if BitVec.ofNat 8 (min 255 k) = 255 then 255 else BitVec.ofNat 8 (min 255 k) + 1 := by
  have hsmall : BitVec.ofNat 8 (min 255 k) = 255 ↔ 255 ≤ k := by
    rw [← BitVec.toNat_inj, BitVec.toNat_ofNat]
    change _ = 255 ↔ _
    omega
  simp only [hsmall]
  split
  · next h => rw [Nat.min_eq_left (by omega)]; rfl
  · next h =>
    rw [Nat.min_eq_right (by omega), Nat.min_eq_right (by omega), BitVec.ofNat_add]
    rfl

@[simp] theorem Queue.aborted_nil (Q : Queue) : Q.aborted [] false = Q := by
  simp [Queue.aborted, ofNat_min_toNat]

theorem Queue.aborted_converted (Q : Queue) {rec : Record} (h : rec.status ≠ .ok) :
    Q.aborted [rec] true = Q.afterPost rec true := by
  simp [Queue.aborted, Queue.afterPost, Queue.takes, ofNat_min_toNat, h]

/-- One record more. -/
theorem Queue.aborted_concat (Q : Queue) (recs : List Record) (converted : Bool) {rec : Record}
    (h : rec.status ≠ .ok) (hc : converted = true → recs ≠ [] ∧ 0 < Q.resv) :
    (Q.aborted recs converted).afterPost rec false = Q.aborted (recs ++ [rec]) converted := by
  have err : (rec.status != .ok) = true := by simpa using h
  set room := Q.quota - (Q.records.length + Q.resv) + (if converted then 1 else 0) with hroom
  have takes : (Q.aborted recs converted).takes false = decide (recs.length < room) := by
    have hc' : converted = true → 0 < recs.length ∧ 0 < Q.resv := fun e =>
      ⟨List.length_pos_iff.2 (hc e).1, (hc e).2⟩
    simp only [Queue.takes, Queue.aborted, Bool.false_or, List.length_append, List.length_map,
      List.length_zipIdx, List.length_take, ← hroom]
    refine decide_eq_decide.2 ?_
    cases converted
    · simp only [Bool.false_eq_true, if_false] at *
      omega
    · have := hc' rfl
      simp only [if_true] at *
      omega
  by_cases hlt : recs.length < room
  · have all : recs.take room = recs := List.take_of_length_le hlt.le
    have all' : (recs ++ [rec]).take room = recs ++ [rec] :=
      List.take_of_length_le (by rw [List.length_append]; exact hlt)
    rw [Queue.afterPost, takes, if_pos (by simpa using hlt)]
    simp only [Queue.aborted, ← hroom, all, all']
    simp [List.zipIdx_append, BitVec.add_assoc, BitVec.ofNat_add, err, Nat.sub_eq_zero_of_le, hlt,
      hlt.le, Nat.not_lt.2 hlt.le]
  · have same : (recs ++ [rec]).take room = recs.take room :=
      List.take_append_of_le_length (Nat.not_lt.1 hlt)
    rw [Queue.afterPost, takes, if_neg (by simpa using hlt)]
    have more : Q.lostCount.toNat + ((recs ++ [rec]).length - room) =
        Q.lostCount.toNat + (recs.length - room) + 1 := by
      simp only [List.length_append, List.length_singleton]
      omega
    have lost : room < (recs ++ [rec]).length := by
      simp only [List.length_append, List.length_singleton]
      omega
    simp only [Queue.aborted, ← hroom, same, more, ofNat_min_succ, err, lost]
    simp

-- The runs

/-- The records of the runs of the slots in `l` that queue `q` gets, in order (03 R61). -/
def abortRecords (s : State) (q : QueueId) (l : List Slot) (data : Slot → List Byte) : List Record :=
  (l.filter fun n => copyQueue (s.run n).copy == q).map fun n => recordOf s n .aborted (data n)

theorem abortRecords_concat (s : State) (q : QueueId) (l : List Slot) (data : Slot → List Byte)
    (n : Slot) : abortRecords s q (l ++ [n]) data =
      abortRecords s q l data
        ++ if q = copyQueue (s.run n).copy then [recordOf s n .aborted (data n)] else [] := by
  by_cases h : copyQueue (s.run n).copy = q
  · simp [abortRecords, h]
  · simp [abortRecords, h, Ne.symm h]

/-- The rule's closed form is that of the postings of the records in order. -/
theorem abortedInOrder_iff {s t : State} {q : QueueId} {l : List Slot} {data : Slot → List Byte}
    {converted : Bool} : AbortedInOrder s t q l data converted ↔
      t.queue q = (s.queue q).aborted (abortRecords s q l data) converted := by
  simp only [AbortedInOrder, Queue.aborted, abortRecords, ← List.map_take, List.zipIdx_map,
    List.map_map, List.length_map, List.isEmpty_map]
  rfl

/-- `t` is `s` after the ends of the runs in `l`, in order, as the queues, the live-run counts and the
head-stream pointer show them; `converted` names the queue in which the first held a reservation. -/
structure EndedInOrder (s t : State) (l : List Slot) (data : Slot → List Byte)
    (converted : QueueId → Bool) : Prop where
  rest : t = { s with
    trig := t.trig, runs := t.runs, ports := t.ports, queues := t.queues, headPtr := t.headPtr }
  trigger : ∀ m, t.trigger m =
    { s.trigger m with live := (s.trigger m).live - l.countP fun n => (s.run n).source == m }
  queue : ∀ q, AbortedInOrder s t q l data (converted q)
  head : HeadAfterPostings s t

theorem EndedInOrder.nil (s : State) (data : Slot → List Byte) :
    EndedInOrder s s [] data fun _ => false where
  rest := rfl
  trigger _ := by simp
  queue _ := abortedInOrder_iff.2 (by simp [abortRecords])
  head := by simp [HeadAfterPostings]

/-- A change of runs and ports that ends no run. -/
theorem EndedInOrder.congr {s t u : State} {l : List Slot} {data : Slot → List Byte}
    {converted : QueueId → Bool} (h : EndedInOrder s t l data converted)
    (same : u = { t with runs := u.runs, ports := u.ports }) :
    EndedInOrder s u l data converted := by
  obtain ⟨rest, trigger, queue, head⟩ := h
  have ht (m : Source) : u.trigger m = t.trigger m := by rw [same]; rfl
  have hq (q : QueueId) : u.queue q = t.queue q := by rw [same]; rfl
  refine ⟨?_, fun m => ht m ▸ trigger m, fun q => ?_, ?_⟩
  · rw [same, rest]
  · rw [abortedInOrder_iff, hq]
    exact abortedInOrder_iff.1 (queue q)
  · have hh : u.headPtr = t.headPtr := by rw [same]
    rw [HeadAfterPostings, hq, hh]
    exact head

/-- A posting after postings that removed no record (06 R122). -/
theorem HeadAfterPostings.posted {s u : State} (h : HeadAfterPostings s u) (sel : u.rqsel = s.rqsel)
    (kept : ∀ q, (s.queue q).records <+: (u.queue q).records) (q : QueueId) (rec : Record)
    (held : Bool) : HeadAfterPostings s (posted u q rec held) := by
  have hp : (Machine.posted u q rec held).headPtr =
      if (u.queue q).takes held && (u.queue q).records.isEmpty && u.rqsel == q then 0
      else u.headPtr := rfl
  rw [HeadAfterPostings, hp]
  rw [HeadAfterPostings] at h
  have hempty : (u.queue s.rqsel).records = [] → (s.queue s.rqsel).records = [] := fun e =>
    List.prefix_nil.1 (e ▸ kept s.rqsel)
  by_cases hq : s.rqsel = q
  · subst hq
    rw [posted_queue_self, Queue.afterPost]
    by_cases ht : (u.queue s.rqsel).takes held = true
    · by_cases he : (u.queue s.rqsel).records = []
      · simp [ht, he, sel, hempty he]
      · simp [ht, he, h]
    · simp [ht, h]
  · rw [posted_queue_of_ne _ _ hq, if_neg (by simp [sel, hq]), h]

theorem runGone_trigger (s : State) (n : Slot) (m : Source) :
    (runGone s n).trigger m =
      { s.trigger m with live := (s.trigger m).live - if m = (s.run n).source then 1 else 0 } := by
  simp only [runGone, State.setRun_trigger, State.setTrigger_trigger]
  split
  · next e => rw [e]
  · rfl

/-- The run of slot `n` gone and a record posted after the ends of the runs in `l`: one end more, where the
record is the one that its queue should get. -/
theorem EndedInOrder.posted {s u : State} {l : List Slot} {data : Slot → List Byte}
    {converted converted' : QueueId → Bool} (h : EndedInOrder s u l data converted) {n : Slot}
    (run : u.run n = s.run n) (q : QueueId) (rec : Record) (held : Bool)
    (queues : ∀ x, (posted (runGone u n) q rec held).queue x =
      (s.queue x).aborted (abortRecords s x (l ++ [n]) data) (converted' x)) :
    EndedInOrder s (posted (runGone u n) q rec held) (l ++ [n]) data converted' := by
  obtain ⟨rest, trigger, queue, head⟩ := h
  refine ⟨?_, fun m => ?_, fun x => abortedInOrder_iff.2 (queues x), ?_⟩
  · exact congrArg (fun w : State => { w with
      trig := (runGone u n).trig, runs := (runGone u n).runs, ports := u.ports,
      queues := (Machine.posted u q rec held).queues,
      headPtr := (Machine.posted u q rec held).headPtr }) rest
  · refine (runGone_trigger u n m).trans ?_
    rw [trigger, run, List.countP_append, List.countP_singleton]
    by_cases e : m = (s.run n).source
    · simp [e, Nat.sub_sub]
    · simp [e, Ne.symm e]
  · have gone : HeadAfterPostings s (runGone u n) := head
    refine gone.posted (by rw [rest]; rfl) (fun x => ?_) q rec held
    rw [runGone_queue, abortedInOrder_iff.1 (queue x)]
    exact List.prefix_append _ _

/-- The end of a run that holds no reservation. -/
theorem EndedInOrder.concat {s u : State} {l : List Slot} {data : Slot → List Byte}
    {converted : QueueId → Bool} (h : EndedInOrder s u l data converted) {n : Slot}
    (run : u.run n = s.run n)
    (counts : ∀ q, converted q = true → abortRecords s q l data ≠ [] ∧ 0 < (s.queue q).resv) :
    EndedInOrder s (Machine.posted (runGone u n) (copyQueue (s.run n).copy)
      (recordOf s n .aborted (data n)) false) (l ++ [n]) data converted := by
  refine h.posted run _ _ false fun q => ?_
  have hq : u.queue q = _ := abortedInOrder_iff.1 (h.queue q)
  rw [abortRecords_concat]
  by_cases e : q = copyQueue (s.run n).copy
  · subst e
    rw [posted_queue_self, runGone_queue, hq, if_pos rfl,
      Queue.aborted_concat _ _ _ (by simp [recordOf]) (counts _)]
  · rw [posted_queue_of_ne _ _ e, runGone_queue, hq, if_neg e, List.append_nil]

/-- The end of the run attached to a port, before any other (03 R62, R63). -/
theorem EndedInOrder.attached {s : State} {n : Slot} (hold : HoldsProperly s n)
    (data : Slot → List Byte) :
    EndedInOrder s (abortedRun s n (data n)) [n] data fun q => (s.run n).resv == some q := by
  have record : formRecord s n .aborted (data n) = recordOf s n .aborted (data n) := rfl
  have bad : (recordOf s n .aborted (data n)).status ≠ .ok := by simp [recordOf]
  rw [abortedRun, hold.postQueue, hold.converts, record]
  refine (EndedInOrder.nil s data).posted rfl _ _ _ fun q => ?_
  rw [abortRecords_concat]
  by_cases e : q = copyQueue (s.run n).copy
  · subst e
    rw [posted_queue_self, runGone_queue, if_pos rfl]
    cases resv : (s.run n).resv with
    | none =>
      simpa [abortRecords] using Queue.aborted_concat (s.queue _) [] false bad (by simp)
    | some x =>
      obtain ⟨rfl, -⟩ := hold x resv
      simpa [abortRecords] using (Queue.aborted_converted (s.queue _) bad).symm
  · have other : ((s.run n).resv == some q) = false := by
      cases resv : (s.run n).resv with
      | none => rfl
      | some x =>
        obtain ⟨rfl, -⟩ := hold x resv
        simpa using Ne.symm e
    rw [posted_queue_of_ne _ _ e, runGone_queue, if_neg e, other]
    simp [abortRecords]

/-- The end of a PENDING run, whose data is none (01 R16, 03 R63). -/
theorem EndedInOrder.endPending {s u : State} {l : List Slot} {data : Slot → List Byte}
    {converted : QueueId → Bool} (h : EndedInOrder s u l data converted) {n : Slot} {p : Port}
    (run : u.run n = s.run n) (port : (s.run n).port = some p) (none : data n = [])
    (counts : ∀ q, converted q = true → abortRecords s q l data ≠ [] ∧ 0 < (s.queue q).resv) :
    EndedInOrder s (endPending n u) (l ++ [n]) data converted := by
  have stamp : u.timestamp = s.timestamp := by rw [h.rest]
  have record : abortedRecord u n = recordOf s n .aborted (data n) := by
    simp only [abortedRecord, formRecord, recordOf, run, none, stamp]
  rw [endPending_of_port (run ▸ port)]
  refine (h.concat run counts).congr ?_
  rw [abortPosted, record, run]
  rfl

end Sys2Proof.Machine
end

section
/-! PORT_RESET (03 R63, 04 R79, 05 R102): the attached run and the queued runs of a port end in order. -/

namespace Sys2Proof.Machine

variable {s : State} {p : Port}

/-- The runs that PORT_RESET of port `p` ends, in order (03 R63). -/
def resetRuns (s : State) (p : Port) : List Slot :=
  (s.port p).attached.toList ++ (s.port p).urgent ++ (s.port p).normal

/-- The bytes of the record of each run that PORT_RESET of port `p` ends (03 R62). -/
def resetData (s : State) (p : Port) (n : Slot) : List Byte :=
  if (s.port p).attached = some n ∧ (s.port p).state ≠ .gap then (s.run n).capture else []

/-- The attached run of port `p` holds a reservation in queue `q`. -/
def resetConverts (s : State) (p : Port) (q : QueueId) : Bool :=
  (s.port p).attached.any fun n => (s.run n).resv == some q

theorem RunsPlaced.queued {n : Slot} (h : RunsPlaced s)
    (hn : n ∈ (s.port p).urgent ∨ n ∈ (s.port p).normal) :
    (s.run n).port = some p ∧ (s.port p).attached ≠ some n := by
  obtain ⟨τ, hτ⟩ : ∃ τ, n ∈ (s.port p).tierQueue τ := hn.elim (⟨.urgent, ·⟩) (⟨.normal, ·⟩)
  exact ⟨(((h.placed.seated n).queue p τ).1 hτ).2.1, h.placed.not_attached_of_queued hτ p⟩

/-- Every run of a port is in one place (03 R38). -/
theorem RunsPlaced.resetRuns_nodup (h : RunsPlaced s) (p : Port) : (resetRuns s p).Nodup := by
  have tiers : ((s.port p).urgent ++ (s.port p).normal).Nodup := by
    refine List.nodup_append.2 ⟨h.placed.nodup p .urgent, h.placed.nodup p .normal, ?_⟩
    rintro n hu m hm rfl
    have urgent := (((h.placed.seated n).queue p .urgent).1 hu).2.2
    have normal := (((h.placed.seated n).queue p .normal).1 hm).2.2
    exact absurd (urgent.symm.trans normal) (by simp)
  rw [resetRuns, List.append_assoc]
  refine List.nodup_append.2 ⟨by cases (s.port p).attached <;> simp, tiers, ?_⟩
  rintro n ha m hm rfl
  exact (h.queued (List.mem_append.1 hm)).2 (Option.mem_toList.1 ha)

/-- `u` is `s` after the ends of the first runs, `l`, of a PORT_RESET of port `p`, whose service is that of `C`
by then. -/
structure Drained (s u : State) (p : Port) (C : PortRec) (l : List Slot) : Prop where
  ended : EndedInOrder s u l (resetData s p) (resetConverts s p)
  run : ∀ n, u.run n = if n ∈ l then freeRun else s.run n
  port : (u.port p).cleared = C
  others : ∀ x, x ≠ p → u.port x = s.port x

theorem PortRec.cleared_without (P : PortRec) (τ : Tier) (n : Slot) :
    (P.without τ n).cleared = P.cleared := by
  cases τ <;> rfl

theorem Drained.ends {u : State} {C : PortRec} {l : List Slot} {n : Slot}
    (h : Drained s u p C l) (new : n ∉ l) (port : (s.run n).port = some p)
    (queued : (s.port p).attached ≠ some n)
    (first : ∀ q, resetConverts s p q = true →
      abortRecords s q l (resetData s p) ≠ [] ∧ 0 < (s.queue q).resv) :
    Drained s (endPending n u) p C (l ++ [n]) := by
  have run : u.run n = s.run n := by rw [h.run, if_neg new]
  have closed := endPending_of_port (s := u) (run ▸ port)
  refine ⟨h.ended.endPending run port (by simp [resetData, queued]) first, fun m => ?_, ?_,
    fun x hx => ?_⟩
  · rw [endPending_run, h.run]
    by_cases e : m = n <;> simp [e]
  · rw [closed, State.setPort_port_self, PortRec.cleared_without, h.port]
  · rw [closed, State.setPort_port_of_ne _ hx]
    exact h.others x hx

/-- A queue of the port drained from its head. -/
theorem Drained.drain {u : State} {C : PortRec} {l more : List Slot} (h : Drained s u p C l)
    (nodup : (l ++ more).Nodup)
    (queued : ∀ n ∈ more, (s.run n).port = some p ∧ (s.port p).attached ≠ some n)
    (first : ∀ q, resetConverts s p q = true →
      abortRecords s q l (resetData s p) ≠ [] ∧ 0 < (s.queue q).resv) :
    Drained s (more.foldl (fun st n => endPending n st) u) p C (l ++ more) := by
  induction more generalizing u l with
  | nil => simpa using h
  | cons n more ih =>
    obtain ⟨port, att⟩ := queued n (by simp)
    have new : n ∉ l := fun hn => (List.nodup_append.1 nodup).2.2 n hn n (by simp) rfl
    have step := h.ends new port att first
    rw [List.append_cons] at nodup ⊢
    refine ih step nodup (fun m hm => queued m (List.mem_cons_of_mem n hm)) fun q hq => ?_
    obtain ⟨some, counted⟩ := first q hq
    exact ⟨by rw [abortRecords_concat]; simp [some], counted⟩

theorem Drained.onPort {u : State} {C : PortRec} {l : List Slot} (h : Drained s u p C l)
    {f : PortRec → PortRec} (hf : ∀ P, (f P).cleared = f P.cleared) :
    Drained s (u.onPort p f) p (f C) l :=
  ⟨h.ended.congr rfl, h.run, by rw [State.onPort_port_self, hf, h.port], fun x hx => by
    rw [State.onPort_port_of_ne hx, h.others x hx]⟩

/-- The port left by its attached run, if any. -/
theorem resetAttached_drained (hold : ∀ n, (s.port p).attached = some n → HoldsProperly s n) :
    Drained s (resetAttached p s) p { s.port p with attached := none }.cleared
      (s.port p).attached.toList := by
  cases att : (s.port p).attached with
  | none =>
    simp only [resetAttached, att, Option.toList_none]
    have none : resetConverts s p = fun _ => false := by funext q; simp [resetConverts, att]
    exact ⟨none ▸ .nil s _, by simp, by rw [← att], fun _ _ => rfl⟩
  | some n =>
    simp only [resetAttached, att, abortAttached_eq, Option.toList_some]
    have data : abortData s p n = resetData s p n := by
      by_cases gap : (s.port p).state = .gap <;> simp [abortData, resetData, att, gap]
    have holds : resetConverts s p = fun q => (s.run n).resv == some q := by
      funext q; simp [resetConverts, att]
    refine ⟨?_, fun m => ?_, by rw [State.setPort_port_self], fun x hx => ?_⟩
    · rw [data, holds]
      exact (EndedInOrder.attached (hold n att) (resetData s p)).congr rfl
    · have closed : (abortedRun s n (abortData s p n)).run m = _ := runGone_run s n m
      simpa using closed
    · rw [State.setPort_port_of_ne _ hx]
      rfl

theorem resetAttached_first (hold : ∀ n, (s.port p).attached = some n → HoldsProperly s n)
    {q : QueueId} (hq : resetConverts s p q = true) :
    abortRecords s q (s.port p).attached.toList (resetData s p) ≠ [] ∧ 0 < (s.queue q).resv := by
  cases att : (s.port p).attached with
  | none => simp [resetConverts, att] at hq
  | some n =>
    have resv : (s.run n).resv = some q := by simpa [resetConverts, att] using hq
    obtain ⟨rfl, counted⟩ := hold n att q resv
    exact ⟨by simp [abortRecords], counted⟩

/-- The service of a port after PORT_RESET. -/
def PortRec.reset (finishing : Bool) (P : PortRec) : PortRec :=
  ({ P with attached := none } : PortRec).cleared.cutOff finishing

theorem PortRec.cleared_cutOff (b : Bool) (P : PortRec) :
    (P.cutOff b).cleared = P.cleared.cutOff b := by
  cases b <;> rfl

theorem PortRec.cleared_reset (b : Bool) (P : PortRec) : (P.reset b).cleared = P.reset b := by
  cases b <;> rfl

theorem resetAttached_tierQueue (p : Port) (s : State) (τ : Tier) :
    ((resetAttached p s).port p).tierQueue τ = (s.port p).tierQueue τ := by
  unfold resetAttached
  split
  · rfl
  · rw [abortAttached_eq, State.setPort_port_self]
    cases τ <;> rfl

/-- PORT_RESET where every run is in its place: the attached run, the URGENT and the NORMAL queue. -/
theorem resetPortCmd_drained (placed : RunsPlaced s)
    (hold : ∀ n, (s.port p).attached = some n → HoldsProperly s n) :
    Drained s (resetPortCmd p s) p ((s.port p).reset (finishes s p)) (resetRuns s p) := by
  set u := (resetAttached p s).onPort p (PortRec.cutOff (finishes s p)) with hu
  have queue (τ : Tier) : (u.port p).tierQueue τ = (s.port p).tierQueue τ := by
    rw [hu, State.onPort_port_self, (PortRec.cutOff_sparesQueues _).1, resetAttached_tierQueue]
  have left : Drained s u p _ (s.port p).attached.toList :=
    (resetAttached_drained hold).onPort (PortRec.cleared_cutOff _)
  obtain ⟨-, -, other⟩ := drain_changes (p := p) (τ := .urgent)
    ((resetAttached_changes placed p).runsPlaced placed) (queue .urgent)
  have nodup : ((s.port p).attached.toList ++ ((s.port p).urgent ++ (s.port p).normal)).Nodup := by
    rw [← List.append_assoc]
    exact placed.resetRuns_nodup p
  have both := left.drain nodup (fun n hn => placed.queued (List.mem_append.1 hn)) fun q hq =>
    resetAttached_first hold hq
  have drained : drainQueues p u =
      ((s.port p).urgent ++ (s.port p).normal).foldl (fun st n => endPending n st) u := by
    have urgent : (u.port p).urgent = (s.port p).urgent := queue .urgent
    have normal : (((s.port p).urgent.foldl (fun st n => endPending n st) u).port p).normal =
        (s.port p).normal := (other .normal (by simp)).trans (queue .normal)
    simp only [drainQueues, urgent, normal, List.foldl_append]
  rw [resetPortCmd_eq, ← hu, drained, resetRuns, List.append_assoc]
  have cleared := both.onPort (f := PortRec.cleared) fun P => rfl
  exact PortRec.cleared_reset (finishes s p) (s.port p) ▸ cleared

/-- The settings of the port are cleared by then. -/
theorem resetPortCmd_port (s : State) (p : Port) :
    (resetPortCmd p s).port p = ((resetPortCmd p s).port p).cleared := by
  rw [resetPortCmd_eq, State.onPort_port_self]
  rfl

theorem exec_portReset_of_val (free : BusFree s) (harg : s.commandArg.toNat = p.val) :
    exec (.portReset 0) s = .next (resetPortCmd p s) := by
  change Host.Outcome.next (hostWrite (withArg 4 resetPortCmd) (whenRunning (afterClocks 0) s)) = _
  rw [whenRunning_afterClocks_zero, hostWrite_of_busFree _ free, withArg_of_val _ p harg]

/-- A port finishes its byte where it shifts one, for a run or after a run that has been cut off (05 R102). -/
theorem finishes_iff (s : State) (p : Port) : finishes s p = true ↔
    (s.port p).state = .shifting
      ∧ ((s.port p).attached = none ∨ (s.port p).frame.any insideByte = true) := by
  rw [finishes, Bool.and_eq_true, beq_iff_eq]
  refine and_congr_right fun _ => ?_
  cases att : (s.port p).attached with
  | none => simp [cutsByte, att]
  | some n => simp [cutsByte_of_attached att]

/-- Settles O42. -/
theorem portResetDrainsThePort : Obligations.PortResetDrainsThePort := by
  refine ⟨fun k s running => exec_portReset_succ k running, fun p s free harg placed hold => ?_⟩
  rw [exec_portReset_of_val free harg]
  obtain ⟨⟨rest, trigger, queue, head⟩, run, port, others⟩ := resetPortCmd_drained placed hold
  refine ⟨_, rfl, rest, run, trigger, fun x => ?_, queue, head⟩
  by_cases hx : x = p
  · subst hx
    rw [if_neg (not_not.2 rfl), resetPortCmd_port, port]
    by_cases h : finishes s x = true
    · rw [if_pos ((finishes_iff s x).1 h), h]
      rfl
    · rw [if_neg (mt (finishes_iff s x).2 h), Bool.eq_false_iff.2 h]
      rfl
  · rw [if_pos hx, others x hx]

end Sys2Proof.Machine
end

section
/-! CANCEL_TRIGGER (01 R16): the PENDING runs of a source end in slot order, its attached runs are marked. -/

namespace Sys2Proof.Machine

variable {s : State} {src : Source}

/-- The runs that CANCEL_TRIGGER of source `src` ends. -/
def cancels (s : State) (src : Source) (n : Slot) : Bool :=
  (s.run n).state == .pending && (s.run n).source == src

/-- A run after CANCEL_TRIGGER of source `src`. -/
def Run.cancelled (src : Source) (r : Run) : Run :=
  if r.source ≠ src ∨ r.state = .free then r
  else if r.state = .pending then freeRun
  else { r with mark := true }

/-- The port's tier queues with the slots that `keep` names. -/
def PortRec.keeping (P : PortRec) (keep : Slot → Bool) : PortRec :=
  { P with urgent := P.urgent.filter keep, normal := P.normal.filter keep }

theorem PortRec.keeping_congr {P : PortRec} {f g : Slot → Bool}
    (h : ∀ τ, ∀ n ∈ P.tierQueue τ, f n = g n) : P.keeping f = P.keeping g := by
  have urgent : P.urgent.filter f = P.urgent.filter g := List.filter_congr (h .urgent)
  have normal : P.normal.filter f = P.normal.filter g := List.filter_congr (h .normal)
  rw [PortRec.keeping, urgent, normal]
  rfl

/-- A slot that stands in one tier queue only, taken from it. -/
theorem PortRec.keeping_without {P : PortRec} (nodup : ∀ τ, (P.tierQueue τ).Nodup) {τ : Tier}
    {n : Slot} (only : ∀ σ, n ∈ P.tierQueue σ → σ = τ) (f : Slot → Bool) :
    (P.keeping f).without τ n = P.keeping fun m => m != n && f m := by
  have taken (σ : Tier) : ((P.tierQueue σ).filter f).erase n =
      (P.tierQueue σ).filter fun m => m != n && f m := by
    rw [((nodup σ).filter f).erase_eq_filter, List.filter_filter]
  have spared {σ : Tier} (h : σ ≠ τ) : (P.tierQueue σ).filter f =
      (P.tierQueue σ).filter fun m => m != n && f m :=
    List.filter_congr fun m hm => by
      have : m ≠ n := fun e => h (only σ (e ▸ hm))
      simp [this]
  cases τ
  · have normal := taken .normal
    have urgent := spared (σ := .urgent) (by simp)
    simp only [PortRec.tierQueue] at normal urgent
    simp only [PortRec.keeping, PortRec.without, normal, ← urgent]
  · have urgent := taken .urgent
    have normal := spared (σ := .normal) (by simp)
    simp only [PortRec.tierQueue] at normal urgent
    simp only [PortRec.keeping, PortRec.without, urgent, ← normal]

/-- Slot `n` is not one of those in `l` that CANCEL_TRIGGER of source `src` has come by and that name it. -/
def uncancelled (s : State) (src : Source) (l : List Slot) (n : Slot) : Bool :=
  !(decide (n ∈ l) && (s.run n).source == src)

/-- `u` is `s` after CANCEL_TRIGGER of source `src` at the slots in `l`. -/
structure CancelledAt (src : Source) (s u : State) (l : List Slot) : Prop where
  ended : EndedInOrder s u (l.filter (cancels s src)) (fun _ => []) fun _ => false
  run : ∀ n, u.run n = if n ∈ l then (s.run n).cancelled src else s.run n
  port : ∀ p, u.port p = (s.port p).keeping (uncancelled s src l)

theorem CancelledAt.nil (src : Source) (s : State) : CancelledAt src s s [] := by
  refine ⟨.nil s _, by simp, fun p => ?_⟩
  have all (n : Slot) : uncancelled s src [] n = true := by simp [uncancelled]
  rw [PortRec.keeping_congr (g := fun _ => true) fun _ n _ => all n]
  simp [PortRec.keeping]

theorem uncancelled_concat_of_ne {n m : Slot} (h : m ≠ n) (l : List Slot) :
    uncancelled s src (l ++ [n]) m = uncancelled s src l m := by
  simp [uncancelled, h]

/-- The runs before and after CANCEL_TRIGGER at one more slot. -/
theorem CancelledAt.run_concat {u v : State} {l : List Slot} {n : Slot} (h : CancelledAt src s u l)
    (runs : ∀ m, v.run m = if m = n then (s.run n).cancelled src else u.run m) (m : Slot) :
    v.run m = if m ∈ l ++ [n] then (s.run m).cancelled src else s.run m := by
  rw [runs, h.run]
  by_cases e : m = n <;> simp [e]

/-- A slot whose run does not end. -/
theorem CancelledAt.spared {u v : State} {l : List Slot} {n : Slot} (placed : RunsPlaced s)
    (h : CancelledAt src s u l) (stays : cancels s src n = false) (same : v = { u with runs := v.runs })
    (runs : ∀ m, v.run m = if m = n then (s.run n).cancelled src else u.run m) :
    CancelledAt src s v (l ++ [n]) := by
  have port (p : Port) : v.port p = u.port p := by rw [same]; rfl
  refine ⟨?_, h.run_concat runs, fun p => ?_⟩
  · rw [List.filter_append, List.filter_singleton, stays]
    have ports : v.ports = u.ports := by rw [same]
    rw [cond_false, List.append_nil]
    exact h.ended.congr (by rw [ports]; exact same)
  · rw [port, h.port]
    refine PortRec.keeping_congr fun τ m hm => ?_
    by_cases e : m = n
    · subst e
      have pending := (((placed.placed.seated m).queue p τ).1 hm).1
      have other : ((s.run m).source == src) = false := by simpa [cancels, pending] using stays
      simp [uncancelled, other]
    · rw [uncancelled_concat_of_ne e]

/-- A slot whose run ends. -/
theorem CancelledAt.ends {u : State} {l : List Slot} {n : Slot} (placed : RunsPlaced s)
    (h : CancelledAt src s u l) (new : n ∉ l) (ends : cancels s src n = true) :
    CancelledAt src s (endPending n u) (l ++ [n]) := by
  have run : u.run n = s.run n := by rw [h.run, if_neg new]
  obtain ⟨pending, source⟩ : (s.run n).state = .pending ∧ (s.run n).source = src := by
    simpa [cancels] using ends
  obtain ⟨p, port, queued⟩ := placed.placed.pending_seat pending
  have closed := endPending_of_port (s := u) (run ▸ port)
  have taken (m : Slot) : uncancelled s src (l ++ [n]) m = (m != n && uncancelled s src l m) := by
    by_cases e : m = n
    · simp [uncancelled, e, source]
    · simp [uncancelled_concat_of_ne e, e]
  refine ⟨?_, h.run_concat fun m => ?_, fun x => ?_⟩
  · rw [List.filter_append, List.filter_singleton, ends]
    exact h.ended.endPending run port rfl (by simp)
  · rw [endPending_run]
    simp [Run.cancelled, pending, source]
  · rw [closed, State.setPort_port]
    split
    · next e =>
      subst e
      rw [h.port, run, PortRec.keeping_without (placed.placed.nodup x) fun σ hσ => ?_,
        PortRec.keeping_congr fun _ m _ => taken m]
      exact ((((placed.placed.seated n).queue x σ).1 hσ).2.2).symm
    · next e =>
      refine (h.port x).trans (PortRec.keeping_congr fun τ m hm => ?_)
      have away : m ≠ n := fun k => e <| Option.some.inj <|
        (((placed.placed.seated n).queue x τ).1 (k ▸ hm)).2.1.symm.trans port
      rw [uncancelled_concat_of_ne away]

/-- CANCEL_TRIGGER at one slot: its run ends, or stays as the rule has it. -/
theorem cancelSlot_eq (src : Source) (n : Slot) (s : State) :
    cancelSlot src n s =
      if cancels s src n then endPending n s else s.setRun n ((s.run n).cancelled src) := by
  by_cases source : (s.run n).source = src
  · cases state : (s.run n).state <;> simp [cancelSlot, cancels, Run.cancelled, state, source]
  · simp [cancelSlot, cancels, Run.cancelled, source]

theorem CancelledAt.slot {u : State} {l : List Slot} {n : Slot} (placed : RunsPlaced s)
    (h : CancelledAt src s u l) (new : n ∉ l) : CancelledAt src s (cancelSlot src n u) (l ++ [n]) := by
  have run : u.run n = s.run n := by rw [h.run, if_neg new]
  have same : cancels u src n = cancels s src n := by rw [cancels, cancels, run]
  rw [cancelSlot_eq, same, run]
  cases ends : cancels s src n
  · exact h.spared placed ends rfl fun m => State.setRun_run _ _ _ _
  · exact h.ends placed new ends

theorem CancelledAt.slots {u : State} {l more : List Slot} (placed : RunsPlaced s)
    (h : CancelledAt src s u l) (nodup : (l ++ more).Nodup) :
    CancelledAt src s (more.foldl (fun st n => cancelSlot src n st) u) (l ++ more) := by
  induction more generalizing u l with
  | nil => simpa using h
  | cons n more ih =>
    have new : n ∉ l := fun hn => (List.nodup_append.1 nodup).2.2 n hn n (by simp) rfl
    rw [List.append_cons] at nodup ⊢
    exact ih (h.slot placed new) nodup

/-- CANCEL_TRIGGER, slot by slot. -/
theorem cancelSource_cancelledAt (src : Source) (placed : RunsPlaced s) :
    CancelledAt src s (cancelSource src s) allSlots :=
  (CancelledAt.nil src s).slots placed (List.nodup_finRange 32)

theorem exec_cancelTrigger_of_val (free : BusFree s) (harg : s.commandArg.toNat = src.val) :
    exec .cancelTrigger s = .next (cancelSource src s) := by
  change Host.Outcome.next (hostWrite (withArg 20 cancelSource) s) = _
  rw [hostWrite_of_busFree _ free, withArg_of_val _ src harg]

/-- Settles O22: the slots one by one, in rising order. -/
theorem cancelEndsPendingAndMarksAttached : Obligations.CancelEndsPendingAndMarksAttached := by
  intro src s free harg placed
  rw [exec_cancelTrigger_of_val free harg]
  obtain ⟨⟨rest, trigger, queue, head⟩, run, port⟩ := cancelSource_cancelledAt src placed
  refine ⟨_, rfl, rest, fun n => ?_, fun m => ?_, fun p => ?_, queue, head⟩
  · exact (run n).trans (if_pos (List.mem_finRange n))
  · rw [trigger, List.countP_filter]
    by_cases e : m = src
    · subst e
      rw [if_pos rfl]
      have count : (fun n => (s.run n).source == m && cancels s m n) = cancels s m := by
        funext n
        cases h : (s.run n).source == m <;> simp [cancels, h]
      rw [count]
      rfl
    · have none : ∀ n ∈ allSlots, ((s.run n).source == m && cancels s src n) = false := by
        intro n _
        simp only [cancels]
        grind
      rw [if_neg e, List.countP_eq_zero.2 fun n hn => by simp [none n hn]]
      rfl
  · rw [port]
    have all (n : Slot) : uncancelled s src allSlots n = ((s.run n).source != src) := by
      simp [uncancelled, allSlots, bne]
    rw [PortRec.keeping_congr fun _ n _ => all n]
    rfl

end Sys2Proof.Machine
end
